-- ==== Sys2Proof/Word.lean ====
section
/-! DEFINITION. The words of the block: a byte, a 32-bit register and the 128-bit operand frame
(spec/00_scope.md R10, R11; spec/30_encoding.md R70). Bit 0 is the least significant bit. -/

namespace Sys2Proof

/-- One byte, as a host carries a frame (R52), and the command byte `CMD` (R70). -/
abbrev Byte := BitVec 8

/-- A 32-bit register (R10): `u32` when read by `toNat`, `s32` when read by `toInt`. -/
abbrev Word := BitVec 32

/-- The 128-bit operand frame `IN` (R70) and the output frame `OUTF` (R80). -/
abbrev Frame := BitVec 128

end Sys2Proof
end

