-- ==== Sys2Proof/Config.lean ====
section
/-! DEFINITION. What one build of the block fixes: the constants and the `param` rows of
spec/00_scope.md R9, with the constraints R9 puts on them. The parameters are a structure that carries
its own validity, so parameters outside the constraints (spec/93_implementation_defined.md I15,
"refuse") cannot be built. The manual leaves no value undefined, so this file holds no free value. -/

namespace Sys2Proof

/-- `FRAC`: fractional bits of the fixed-point domain (R9). -/
abbrev FRAC : Nat := 15

/-- `ONE`: fixed-point full scale, 2^15 (R9, D2). -/
abbrev ONE : Int := 32768

/-- `KNOB_MAX`: full scale of an 8-bit control value (R9). -/
abbrev KNOB_MAX : Nat := 255

/-- 2^`CLK_W`: the microsecond clock wraps modulo this (R9, R12 `wrap32`). -/
abbrev CLOCK_MOD : Nat := 4294967296

/-- Codes per volt: a voltage port counts in `VUNIT = 2^-15 V` (R9, R75). -/
abbrev CODES_PER_VOLT : Nat := 32768

/-- The parameters of R9 together with R9's constraints. `GATE_TH` is an `s32` and `V_MIN`, `V_MAX`
are `u32`, each by a bound; `V_CENTER` and `V_GAIN` are bounded only by the last constraint. -/
structure Config where
  /-- `T_FLOOR`: minimum stage duration in microseconds. -/
  tFloor : Nat
  /-- `T_CEIL`: maximum stage duration in microseconds. -/
  tCeil : Nat
  /-- `GATE_TH`: gate-high threshold, signed code in `VUNIT`. -/
  gateTh : Int
  /-- `V_CENTER`: fixed centre offset added by the converter. -/
  vCenter : Int
  /-- `V_GAIN`: output codes per level LSB. -/
  vGain : Int
  /-- `V_MIN`: low clamp of the output code. -/
  vMin : Nat
  /-- `V_MAX`: high clamp of the output code. -/
  vMax : Nat
  /-- R9: `1 <= T_FLOOR`. -/
  one_le_tFloor : 1 ≤ tFloor
  /-- R9: `T_FLOOR <= T_CEIL`. -/
  tFloor_le_tCeil : tFloor ≤ tCeil
  /-- R9: `T_CEIL < 2^31`. -/
  tCeil_lt : tCeil < 2147483648
  /-- R9: `GATE_TH` in s32. -/
  gateTh_s32 : -2147483648 ≤ gateTh ∧ gateTh < 2147483648
  /-- R9: `V_MIN <= V_MAX`. -/
  vMin_le_vMax : vMin ≤ vMax
  /-- R9: `V_MIN` and `V_MAX` in u32. -/
  vMax_u32 : vMax < 4294967296
  /-- R9: `V_CENTER + V_GAIN*ONE < 2^32`. -/
  vTop_u32 : vCenter + vGain * 32768 < 4294967296
  deriving DecidableEq, Repr

/-- The default parameters: the `value` column of R9. -/
def Config.default : Config where
  tFloor := 1000
  tCeil := 5000000
  gateTh := 32768
  vCenter := 163840
  vGain := 5
  vMin := 0
  vMax := 327680
  one_le_tFloor := by decide
  tFloor_le_tCeil := by decide
  tCeil_lt := by decide
  gateTh_s32 := by decide
  vMin_le_vMax := by decide
  vMax_u32 := by decide
  vTop_u32 := by decide

end Sys2Proof
end

