-- ==== Sys2Proof/Syntax.lean ====
section
/-! DEFINITION. The commands as syntax (spec/30_encoding.md R70, R71, R74, R76, R83): one constructor of
`Instr` per row of spec/opcode_table.json, its operands the mathematical integers that R12, R75 and R76
decode a frame's fields to. A `Command` is the raw pair of command byte and operand frame. -/

namespace Sys2Proof

/-- A command as the host presents it: the byte `CMD[7:0]` and the frame `IN[127:0]` (R70). -/
structure Command where
  cmd : Byte
  frame : Frame
  deriving DecidableEq, Repr

/-- The two channels (R3, `N_CH = 2`). -/
inductive ChannelId where
  | a
  | b
  deriving DecidableEq, Repr

/-- The operands of UPDATE, decoded as R75 says. A field left out is 0, as R82 assembles it. -/
structure Upd where
  /-- `NOW`, `IN[31:0]`, microseconds. -/
  now : Nat
  /-- `POT_ATT`, `IN[39:32]`. -/
  potAtt : Nat := 0
  /-- `POT_DEC`, `IN[47:40]`. -/
  potDec : Nat := 0
  /-- `POT_SHAPE`, `IN[55:48]`. -/
  potShape : Nat := 0
  /-- `BTN`, `IN[56]`: 1 = pressed. -/
  btn : Bool := false
  /-- `PEDGE`, `IN[57]`: 1 = a rising edge was seen by this poll. -/
  pedge : Bool := false
  /-- `GATE_A`, `IN[95:64]`, signed code in `VUNIT`. -/
  gateA : Int := 0
  /-- `GATE_B`, `IN[127:96]`, signed code in `VUNIT`. -/
  gateB : Int := 0
  deriving DecidableEq, Repr

/-- `GATE_X` of an UPDATE. -/
def Upd.gate (u : Upd) : ChannelId → Int
  | .a => u.gateA
  | .b => u.gateB

/-- The ten commands of R71, one constructor per row of the opcode table. The arguments of the
evaluation commands are the signed 32-bit `ARG0`, `ARG1`, `ARG2` of R76. -/
inductive Instr where
  | nop
  | reset
  | update (u : Upd)
  | tmap (k : Int)
  | u8q15 (v : Int)
  | qmul (a b : Int)
  | lerp (a b t : Int)
  | clamp (v lo hi : Int)
  | shape (pos blend isAttack : Int)
  | vconv (level : Int)
  deriving DecidableEq, Repr

/-- The assigned values of the selector `OP` by name (R71). -/
inductive Op where
  | nop
  | reset
  | update
  | tmap
  | u8q15
  | qmul
  | lerp
  | clamp
  | shape
  | vconv
  deriving DecidableEq, Repr

/-- The operation a command selects. -/
def Instr.op : Instr → Op
  | .nop => .nop
  | .reset => .reset
  | .update _ => .update
  | .tmap _ => .tmap
  | .u8q15 _ => .u8q15
  | .qmul _ _ => .qmul
  | .lerp _ _ _ => .lerp
  | .clamp _ _ _ => .clamp
  | .shape _ _ _ => .shape
  | .vconv _ => .vconv

/-- The pseudo-instruction `POLL now=<t>` (R83): an UPDATE with every other field 0. -/
def Instr.poll (t : Nat) : Instr := .update { now := t }

/-- The pseudo-instruction `TRIGALL now=<t>` (R83): an UPDATE with `pedge=1` and every other field 0. -/
def Instr.trigall (t : Nat) : Instr := .update { now := t, pedge := true }

end Sys2Proof
end

