-- ==== Sys2Proof/WellFormed.lean ====
section
/-! DEFINITION. When a term of `Instr` is a command the frames can carry: every operand lies in the range
of its field (spec/30_encoding.md R74, R76; the `<u32>`, `<u8>`, `<s32>` of R82). When a raw command is
legal: R72 and R73. Operands outside an evaluation command's DOMAIN are well formed: such a command is
executed and raises `E_DOMAIN` (spec/60_exceptions.md R303). -/

namespace Sys2Proof

/-- `v` is the value of an unsigned 32-bit field. -/
def isU32 (v : Nat) : Bool := decide (v < 4294967296)

/-- `v` is the value of an 8-bit knob field. -/
def isU8 (v : Nat) : Bool := decide (v ≤ 255)

/-- `v` is the value of a two's-complement 32-bit field. -/
def isS32 (v : Int) : Bool := decide (-2147483648 ≤ v ∧ v < 2147483648)

/-- Every operand of an UPDATE fits its field of the `UPD` frame (R74). -/
def Upd.wellFormed (u : Upd) : Bool :=
  isU32 u.now && isU8 u.potAtt && isU8 u.potDec && isU8 u.potShape && isS32 u.gateA && isS32 u.gateB

/-- Every operand fits its field of the command's frame (R74, R76). -/
def Instr.wellFormed : Instr → Bool
  | .nop => true
  | .reset => true
  | .update u => u.wellFormed
  | .tmap k => isS32 k
  | .u8q15 v => isS32 v
  | .qmul a b => isS32 a && isS32 b
  | .lerp a b t => isS32 a && isS32 b && isS32 t
  | .clamp v lo hi => isS32 v && isS32 lo && isS32 hi
  | .shape pos blend isAttack => isS32 pos && isS32 blend && isS32 isAttack
  | .vconv level => isS32 level

/-- A command is legal: its reserved nibble `CMD[7:4]` is 0 (R72) and its selector `CMD[3:0]` is one of
the ten that R71 assigns (R73). -/
def Command.legal (c : Command) : Bool :=
  decide (c.cmd.extractLsb' 4 4 = 0#4) && decide ((c.cmd.extractLsb' 0 4).toNat ≤ 9)

end Sys2Proof
end

