-- ==== Sys2Proof/Decode.lean ====
section
/-! DEFINITION. Decoding a command and encoding an instruction (spec/30_encoding.md R70 to R77), and the
byte order in which a host carries a command (spec/20_memory.md R52). Decoding is total and rejects an
illegal command by name; the machine turns a rejection into `E_ILLEGAL`. -/

namespace Sys2Proof

/-- Why a command is illegal. -/
inductive DecodeError where
  /-- `CMD[7:4]` is not `0000` (R72). -/
  | reservedBits
  /-- `CMD[7:4]` is `0000` and `OP` is 0xA to 0xF (R73). -/
  | reservedOp
  deriving DecidableEq, Repr

/-- `CMD[3:0]`, the selector `OP` (R70). -/
def opField (cmd : Byte) : BitVec 4 := cmd.extractLsb' 0 4

/-- `CMD[7:4]`, the reserved field `RSV` (R70). -/
def rsvField (cmd : Byte) : BitVec 4 := cmd.extractLsb' 4 4

/-- The opcode map of R71, from operation to selector. -/
def Op.code : Op → BitVec 4
  | .nop => 0x0#4
  | .reset => 0x1#4
  | .update => 0x2#4
  | .tmap => 0x3#4
  | .u8q15 => 0x4#4
  | .qmul => 0x5#4
  | .lerp => 0x6#4
  | .clamp => 0x7#4
  | .shape => 0x8#4
  | .vconv => 0x9#4

/-- The opcode map of R71, from selector to operation; 0xA to 0xF are reserved (R73). -/
def opOfCode (op : BitVec 4) : Option Op :=
  match op.toNat with
  | 0 => some .nop
  | 1 => some .reset
  | 2 => some .update
  | 3 => some .tmap
  | 4 => some .u8q15
  | 5 => some .qmul
  | 6 => some .lerp
  | 7 => some .clamp
  | 8 => some .shape
  | 9 => some .vconv
  | _ => none

/-- `ARG0` is `IN[31:0]`, sign-extended (R76). -/
def arg0 (f : Frame) : Int := (f.extractLsb' 0 32).toInt

/-- `ARG1` is `IN[63:32]`, sign-extended (R76). -/
def arg1 (f : Frame) : Int := (f.extractLsb' 32 32).toInt

/-- `ARG2` is `IN[95:64]`, sign-extended (R76). -/
def arg2 (f : Frame) : Int := (f.extractLsb' 64 32).toInt

/-- The fields of the `UPD` frame (R74), decoded as R75 says; `IN[63:58]` is ignored. -/
def decodeUpd (f : Frame) : Upd where
  now := (f.extractLsb' 0 32).toNat
  potAtt := (f.extractLsb' 32 8).toNat
  potDec := (f.extractLsb' 40 8).toNat
  potShape := (f.extractLsb' 48 8).toNat
  btn := f.getLsbD 56
  pedge := f.getLsbD 57
  gateA := (f.extractLsb' 64 32).toInt
  gateB := (f.extractLsb' 96 32).toInt

/-- The operands of an operation, read from the frame R71 gives it. NOP and RESET ignore all of `IN`
(R77); an evaluation command ignores the arguments its rule does not use and `IN[127:96]` (R76). -/
def decodeOperands (f : Frame) : Op → Instr
  | .nop => .nop
  | .reset => .reset
  | .update => .update (decodeUpd f)
  | .tmap => .tmap (arg0 f)
  | .u8q15 => .u8q15 (arg0 f)
  | .qmul => .qmul (arg0 f) (arg1 f)
  | .lerp => .lerp (arg0 f) (arg1 f) (arg2 f)
  | .clamp => .clamp (arg0 f) (arg1 f) (arg2 f)
  | .shape => .shape (arg0 f) (arg1 f) (arg2 f)
  | .vconv => .vconv (arg0 f)

/-- Decode a command. Whether it is illegal is decided from `CMD` alone (R304). -/
def decode (c : Command) : Except DecodeError Instr :=
  if rsvField c.cmd ≠ 0#4 then .error .reservedBits
  else
    match opOfCode (opField c.cmd) with
    | some op => .ok (decodeOperands c.frame op)
    | none => .error .reservedOp

/-- The `ARG` frame with these arguments, `IN[127:96]` zero (R76, R82). -/
def argFrame (a0 a1 a2 : Int) : Frame :=
  0#32 ++ BitVec.ofInt 32 a2 ++ BitVec.ofInt 32 a1 ++ BitVec.ofInt 32 a0

/-- The `UPD` frame with these fields, `IN[63:58]` zero (R74, R75). -/
def updFrame (u : Upd) : Frame :=
  BitVec.ofInt 32 u.gateB ++ BitVec.ofInt 32 u.gateA ++ 0#6 ++ BitVec.ofBool u.pedge ++ BitVec.ofBool u.btn ++
    BitVec.ofNat 8 u.potShape ++ BitVec.ofNat 8 u.potDec ++ BitVec.ofNat 8 u.potAtt ++ BitVec.ofNat 32 u.now

/-- The operand frame of an instruction; operands it does not have are 0 (R82). -/
def encodeFrame : Instr → Frame
  | .nop => 0#128
  | .reset => 0#128
  | .update u => updFrame u
  | .tmap k => argFrame k 0 0
  | .u8q15 v => argFrame v 0 0
  | .qmul a b => argFrame a b 0
  | .lerp a b t => argFrame a b t
  | .clamp v lo hi => argFrame v lo hi
  | .shape pos blend isAttack => argFrame pos blend isAttack
  | .vconv level => argFrame level 0 0

/-- The command of a well-formed instruction: `CMD` is `0x0` followed by the `OP` nibble (R82). -/
def encode (i : Instr) : Command where
  cmd := 0x0#4 ++ i.op.code
  frame := encodeFrame i

/-- A frame as a byte sequence: byte `k` holds bits `[8k+7:8k]` (R52), so the first byte is bits 7..0. -/
def frameBytes (f : Frame) : List Byte :=
  (List.range 16).map fun k => f.extractLsb' (8 * k) 8

/-- The number whose little-endian bytes these are (R52). -/
def bytesValue : List Byte → Nat
  | [] => 0
  | b :: rest => b.toNat + 256 * bytesValue rest

/-- The bytes of a command as a host carries it: the command byte, then the frame's sixteen bytes.
DESIGN CHOICE (notes/assumptions/3.md): the order of `CMD` before `IN`. -/
def commandBytes (c : Command) : List Byte := c.cmd :: frameBytes c.frame

/-- Read a command from the front of a byte sequence; the rest is given back. `none` if fewer than
seventeen bytes are there. -/
def commandOfBytes : List Byte → Option (Command × List Byte)
  | [] => none
  | cmd :: rest =>
    if rest.length < 16 then none
    else some (⟨cmd, BitVec.ofNat 128 (bytesValue (rest.take 16))⟩, rest.drop 16)

/-- The command whose bits are `w`, numbered as spec/opcode_table.json numbers a row's: bits 7..0 are
`CMD`, bits 135..8 are `IN`, and every bit at or above `nbits` is 0. -/
def commandOfTableWord (nbits w : Nat) : Command where
  cmd := BitVec.ofNat 8 (w % 2 ^ nbits)
  frame := BitVec.ofNat 128 (w % 2 ^ nbits / 256)

/-- The instruction the decoder reads from a table word: its bytes are laid out as a host carries them
(R52), read back as a command and decoded; `none` where the decoder refuses. -/
def decodeTableWord (nbits w : Nat) : Option Instr :=
  match commandOfBytes (commandBytes (commandOfTableWord nbits w)) with
  | some (c, _) =>
    match decode c with
    | .ok i => some i
    | .error _ => none
  | none => none

end Sys2Proof
end

