-- ==== Sys2Proof/Machine/Arith.lean ====
section
/-! DEFINITION. The pure arithmetic of the block, on mathematical integers as spec/00_scope.md R12 says:
the fixed-point utilities (spec/40_fixed_point.md), the time map (spec/41_time_map.md), the shape curve
(spec/42_shape.md), elapsed time and linear position (spec/43_channel_fsm.md) and the voltage converter
(spec/45_update.md). Division by a positive number is floor division, as R12's `>>` and `//` are. No width
is cut here but by `wrap32`; a caller cuts a result to its register's width where it writes it. The literals
32768, 255 and 4294967296 are `ONE`, `KNOB_MAX` and 2^`CLK_W` of Config (Laws/Arith.lean). -/

namespace Sys2Proof.Machine

/-- `wrap32(v) = v mod 2^32` (R12). -/
def wrap32 (v : Int) : Nat := (v % 4294967296).toNat

/-- `q15_mul(a, b) = (a * b) >> 15`, floor (R100). -/
def q15Mul (a b : Int) : Int := a * b / 32768

/-- `lerp(a, b, t) = a + q15_mul(b - a, t)` (R103). -/
def lerp (a b t : Int) : Int := a + q15Mul (b - a) t

/-- `clamp(v, lo, hi)` (R106). -/
def clamp (v lo hi : Int) : Int := if v < lo then lo else if v > hi then hi else v

/-- `u8_to_q15(v) = (v * ONE) // 255` (R110). D5 makes this a named configuration point. -/
def u8ToQ15 (v : Nat) : Nat := v * 32768 / 255

/-- `time_map(k)` (R130): the cubic knob map, multiplied before it is divided by 255^3. -/
def timeMap (c : Config) (k : Nat) : Nat :=
  if k = 0 then c.tFloor else c.tFloor + k * k * k * (c.tCeil - c.tFloor) / 16581375

/-- `exp_pos` of R150: `pos^2 / ONE` in Attack, `ONE - (ONE - pos)^2 / ONE` in Decay. -/
def expPos (pos : Int) (isAttack : Bool) : Int :=
  if isAttack then q15Mul pos pos else 32768 - q15Mul (32768 - pos) (32768 - pos)

/-- `shape(pos, blend, is_attack)` (R150). -/
def shape (pos blend : Int) (isAttack : Bool) : Int := lerp pos (expPos pos isAttack) blend

/-- `elapsed = wrap32(now - START_X)` (R171). -/
def elapsed (now : Nat) (start : Word) : Nat := wrap32 ((now : Int) - (start.toNat : Int))

/-- `lin(elapsed, dur) = (elapsed << 15) // max(dur, 1)` (R172), the guard of I5 included. -/
def lin (elapsed dur : Nat) : Nat := elapsed * 32768 / max dur 1

/-- `vconv(level)` (R221): the output voltage code, clamped twice. -/
def vconv (c : Config) (level : Int) : Int :=
  clamp (c.vCenter + c.vGain * clamp level 0 32768) (c.vMin : Int) (c.vMax : Int)

/-- A value as the two's-complement or unsigned contents of a 32-bit register: `s32(v)` and `u32(v)` of
R12. Every rule shows that its value fits. -/
def word (v : Int) : Word := BitVec.ofInt 32 v

end Sys2Proof.Machine
end

