-- ==== Sys2Proof/Machine/State.lean ====
section
/-! DEFINITION. The state of the block as plain data (spec/10_state.md R20): the registers of R21 to R34,
the parameters the build fixes (R9) and the commands the host has issued and the block has not yet taken
(R14, R58). The last two are the model's own fields; see notes/assumptions/1.md and 2.md. -/

namespace Sys2Proof.Machine

/-- `STAGE_X`: "enum {Idle, Attack, Decay}" (R21). -/
inductive Stage where
  | idle
  | attack
  | decay
  deriving DecidableEq, Repr

/-- The two-bit encoding of `STAGE_X` (R21, D18); 3 is the code of no stage. -/
def Stage.code : Stage → BitVec 2
  | .idle => 0#2
  | .attack => 1#2
  | .decay => 2#2

/-- The registers each channel has its own copy of (R20). -/
structure Channel where
  /-- `STAGE_X` (R21). -/
  stage : Stage
  /-- `LEVEL_X`, s32 (R22). -/
  level : Word
  /-- `START_X`, u32 microseconds (R23). -/
  start : Word
  /-- `DUR_X`, u32 microseconds (R24). -/
  dur : Word
  /-- `GWH_X`, the previous UPDATE's gate classification (R25). -/
  gwh : Bool
  /-- `VOUT_X`, u32 code in `VUNIT` (R30). -/
  vout : Word
  /-- `EOC_X` (R32). -/
  eoc : Bool
  /-- `TRIG_X` (R32). -/
  trig : Bool
  deriving DecidableEq, Repr

/-- The block: its registers (R20), its parameters (R9) and the waiting commands. -/
structure State where
  /-- Channel A's registers. -/
  chA : Channel
  /-- Channel B's registers. -/
  chB : Channel
  /-- `BWP`, the previous UPDATE's button level (R26). -/
  bwp : Bool
  /-- `PFLAG`, the one-shot pulse edge flag (R27). -/
  pflag : Bool
  /-- `PULSE_OUT`, the shared pulse output (R31). -/
  pulseOut : Bool
  /-- `RES`, the evaluation result register (R33). -/
  res : Word
  /-- `ERRC`, the error code of the last command (R34). -/
  errc : BitVec 2
  /-- The parameters of R9, fixed before the first command and never written (R351). -/
  config : Config
  /-- Commands issued by the host and not yet taken, the oldest first (R58). -/
  cmds : List Command
  deriving DecidableEq, Repr

/-- Why the machine stops with a fault. No constructor: the block has no trap (R300), its step is total
(R14), and the two command-interface errors leave it running with a code in `ERRC` (R301). -/
inductive Fault where
  deriving DecidableEq, Repr

/-- Why an instruction has no meaning in the model. -/
inductive Refusal where
  /-- The instruction is not modelled. Raised by `exec`'s refused arms alone, of which there are none; it
  would be safe, since nothing is claimed of what follows. -/
  | notModelled (mnemonic : String)
  deriving DecidableEq, Repr

/-- A channel right after reset (R40). -/
def Channel.atReset (c : Config) : Channel where
  stage := .idle
  level := 0#32
  start := 0#32
  dur := BitVec.ofNat 32 c.tFloor
  gwh := false
  vout := word (vconv c 0)
  eoc := false
  trig := false

/-- Every register at its reset value (R40), for these parameters and waiting commands. -/
def State.atReset (c : Config) (cmds : List Command) : State where
  chA := Channel.atReset c
  chB := Channel.atReset c
  bwp := false
  pflag := false
  pulseOut := false
  res := 0#32
  errc := 0#2
  config := c
  cmds := cmds

/-- The block before its first command (R40, R350), with the default parameters of R9 and nothing issued. -/
def State.reset : State := State.atReset Config.default []

/-- Read channel X's registers. -/
def State.chan (s : State) : ChannelId → Channel
  | .a => s.chA
  | .b => s.chB

/-- Write channel X's registers. -/
def State.setChan (s : State) (x : ChannelId) (ch : Channel) : State :=
  match x with
  | .a => { s with chA := ch }
  | .b => { s with chB := ch }

/-- `BWP <- v`. -/
def State.setBwp (s : State) (v : Bool) : State := { s with bwp := v }

/-- `PFLAG <- v`. -/
def State.setPflag (s : State) (v : Bool) : State := { s with pflag := v }

/-- `PULSE_OUT <- v`. -/
def State.setPulseOut (s : State) (v : Bool) : State := { s with pulseOut := v }

/-- `RES <- v`. -/
def State.setRes (s : State) (v : Word) : State := { s with res := v }

/-- `ERRC <- v`. -/
def State.setErrc (s : State) (v : BitVec 2) : State := { s with errc := v }

/-- Replace the waiting commands. -/
def State.setCmds (s : State) (v : List Command) : State := { s with cmds := v }

end Sys2Proof.Machine
end

