-- ==== Sys2Proof/Machine/Ops.lean ====
section
/-! DEFINITION. The operations the meanings share: completing a command, the error outcome
(spec/60_exceptions.md R301), taking the next command (spec/20_memory.md R51, R58) and the output frame
(spec/30_encoding.md R80). The block has no memory (R50) and no registers addressed by number (R35), so no
operation here reads or writes either. The error outcome is this block's one form of taking an exception;
nothing is saved or redirected, so there is no return from it (R308). -/

namespace Sys2Proof.Machine

/-- `ERRC` when a command completes without error (R34). -/
def errNone : BitVec 2 := 0#2

/-- `E_ILLEGAL` (R302). -/
def errIllegal : BitVec 2 := 1#2

/-- `E_DOMAIN` (R303). -/
def errDomain : BitVec 2 := 2#2

/-- The error outcome (R301): `ERRC <- code`, no other register changes, and the command is complete. -/
def raiseError (code : BitVec 2) (s : State) : Host.Outcome State Fault Refusal :=
  .next (s.setErrc code)

/-- An evaluation command that completes: `RES <- s32(v)`, `ERRC <- 0` (R33). -/
def finishEval (v : Int) (s : State) : Host.Outcome State Fault Refusal :=
  .next ((s.setRes (word v)).setErrc errNone)

/-- An evaluation command: its result inside its domain, `E_DOMAIN` outside it (R303). -/
def evaluate (inDomain : Bool) (v : Int) (s : State) : Host.Outcome State Fault Refusal :=
  if inDomain then finishEval v s else raiseError errDomain s

/-- Take the oldest waiting command (R58): the command and the state without it. -/
def fetch (s : State) : Option (Command × State) :=
  match s.cmds with
  | [] => none
  | c :: rest => some (c, s.setCmds rest)

/-- No command waits: every register holds its value. DESIGN CHOICE (notes/assumptions/2.md). -/
def idleStep (s : State) : Host.Outcome State Fault Refusal := .next s

/-- A command the decoder rejects, for either reason, raises `E_ILLEGAL` (R302). -/
def rejectCommand (_e : DecodeError) (s : State) : Host.Outcome State Fault Refusal :=
  raiseError errIllegal s

/-- The host issues `c`: it is taken after every command issued before it (R58). -/
def issue (c : Command) (s : State) : State := s.setCmds (s.cmds ++ [c])

/-- The host issues `c` so that it is the next command taken. -/
def issueNext (c : Command) (s : State) : State := s.setCmds (c :: s.cmds)

/-- `OUTF[127:0]` (R80): a view of the output and state registers, `OUTF[95:73]` zero. -/
def outFrame (s : State) : Frame :=
  s.chB.level.extractLsb' 0 16 ++ s.chA.level.extractLsb' 0 16 ++ 0#23 ++ s.chB.stage.code ++ s.chA.stage.code ++
    BitVec.ofBool s.chB.trig ++ BitVec.ofBool s.chA.trig ++ BitVec.ofBool s.chB.eoc ++ BitVec.ofBool s.chA.eoc ++
    BitVec.ofBool s.pulseOut ++ s.chB.vout ++ s.chA.vout

/-- The output registers of the block (R14, R51): what the host reads after a command. -/
structure Outputs where
  outf : Frame
  res : Word
  errc : BitVec 2
  deriving DecidableEq, Repr

/-- `(OUTF, RES, ERRC)` of R14. Reading them changes nothing (R55). -/
def outputs (s : State) : Outputs where
  outf := outFrame s
  res := s.res
  errc := s.errc

end Sys2Proof.Machine
end

