-- ==== Sys2Proof/Machine/Control.lean ====
section
/-! DEFINITION. The control commands NOP and RESET (spec/46_control.md). -/

namespace Sys2Proof.Machine

/-- `NOP` (R250): `ERRC <- 0` and nothing else. -/
def execNop (s : State) : Host.Outcome State Fault Refusal := .next (s.setErrc errNone)

/-- `RESET` (R252): every register to the value of R40. The parameters are fixed (R351) and the host's
waiting commands are not the block's, so both stay. -/
def execReset (s : State) : Host.Outcome State Fault Refusal := .next (State.atReset s.config s.cmds)

end Sys2Proof.Machine
end

