-- ==== Sys2Proof/Machine/Operands.lean ====
section
/-! DEFINITION. The operand domains of the evaluation commands (spec/60_exceptions.md R303). A command
whose operands fail its check raises `E_DOMAIN`. UPDATE, NOP, RESET and VCONV have no check: every operand
value of theirs is legal (R220, R222). -/

namespace Sys2Proof.Machine

/-- `0 <= v <= 255`: the domain of a knob operand (R111, R131). -/
def inKnob (v : Int) : Bool := decide (0 ≤ v ∧ v ≤ 255)

/-- `0 <= v <= ONE`: the domain of a level, position or blend operand (R104, R151). -/
def inUnit (v : Int) : Bool := decide (0 ≤ v ∧ v ≤ 32768)

/-- `-ONE <= v <= ONE`: the domain of a factor (R101). -/
def inSignedUnit (v : Int) : Bool := decide (-32768 ≤ v ∧ v ≤ 32768)

/-- Domain of TMAP (R131). -/
def tmapDomain (k : Int) : Bool := inKnob k

/-- Domain of U8Q15 (R111). -/
def u8q15Domain (v : Int) : Bool := inKnob v

/-- Domain of QMUL (R101). -/
def qmulDomain (a b : Int) : Bool := inSignedUnit a && inSignedUnit b

/-- Domain of LERP (R104). -/
def lerpDomain (a b t : Int) : Bool := inUnit a && inUnit b && inUnit t

/-- Domain of CLAMP (R107). -/
def clampDomain (lo hi : Int) : Bool := decide (lo ≤ hi)

/-- Domain of SHAPE (R151). -/
def shapeDomain (pos blend isAttack : Int) : Bool :=
  inUnit pos && inUnit blend && decide (isAttack = 0 ∨ isAttack = 1)

end Sys2Proof.Machine
end

