-- ==== Sys2Proof/Machine/Curves.lean ====
section
/-! DEFINITION. The evaluation commands of the time map (TMAP, spec/41_time_map.md), the shape curve
(SHAPE, spec/42_shape.md) and the voltage converter (VCONV, spec/45_update.md). -/

namespace Sys2Proof.Machine

/-- `TMAP` (R131). -/
def execTmap (k : Int) (s : State) : Host.Outcome State Fault Refusal :=
  evaluate (tmapDomain k) (timeMap s.config k.toNat) s

/-- `SHAPE` (R151). -/
def execShape (pos blend isAttack : Int) (s : State) : Host.Outcome State Fault Refusal :=
  evaluate (shapeDomain pos blend isAttack) (shape pos blend (decide (isAttack = 1))) s

/-- `VCONV` (R222): any operand is in its domain. -/
def execVconv (level : Int) (s : State) : Host.Outcome State Fault Refusal :=
  finishEval (vconv s.config level) s

end Sys2Proof.Machine
end

