-- ==== Sys2Proof/Machine/FixedPoint.lean ====
section
/-! DEFINITION. The evaluation commands of the fixed-point utilities (spec/40_fixed_point.md): QMUL, LERP,
CLAMP and U8Q15. -/

namespace Sys2Proof.Machine

/-- `QMUL` (R101). -/
def execQmul (a b : Int) (s : State) : Host.Outcome State Fault Refusal :=
  evaluate (qmulDomain a b) (q15Mul a b) s

/-- `LERP` (R104). -/
def execLerp (a b t : Int) (s : State) : Host.Outcome State Fault Refusal :=
  evaluate (lerpDomain a b t) (lerp a b t) s

/-- `CLAMP` (R107). -/
def execClamp (v lo hi : Int) (s : State) : Host.Outcome State Fault Refusal :=
  evaluate (clampDomain lo hi) (clamp v lo hi) s

/-- `U8Q15` (R111). -/
def execU8q15 (v : Int) (s : State) : Host.Outcome State Fault Refusal :=
  evaluate (u8q15Domain v) (u8ToQ15 v.toNat) s

end Sys2Proof.Machine
end

