-- ==== Sys2Proof/Machine/Envelope.lean ====
section
/-! DEFINITION. The per-channel envelope state machine, micro-operations TRIG and ADV
(spec/43_channel_fsm.md R170 to R177). They run only inside UPDATE, and each is a function of one channel's
registers, so no channel can read or write the other's (spec/10_state.md R28). -/

namespace Sys2Proof.Machine

/-- `TRIG(X, now, t_att)` (R170): a hard restart from any stage; `LEVEL_X` is left to ADV. -/
def trigOp (now tAtt : Nat) (ch : Channel) : Channel :=
  { ch with stage := .attack, start := BitVec.ofNat 32 now, dur := BitVec.ofNat 32 tAtt }

/-- `if trig_X: TRIG(X, now, t_att)` (R220, step 3). -/
def trigIf (fire : Bool) (now tAtt : Nat) (ch : Channel) : Channel :=
  if fire then trigOp now tAtt ch else ch

/-- The Idle branch of ADV (R173, R174). -/
def advIdle (ch : Channel) : Channel × Bool := ({ ch with level := word 0 }, false)

/-- The Attack branch of ADV (R173, R175): snap to `ONE` and enter Decay at `now`, or rise. -/
def advAttack (now tDec : Nat) (blend : Int) (ch : Channel) : Channel × Bool :=
  if elapsed now ch.start ≥ ch.dur.toNat then
    ({ ch with
        level := word 32768
        stage := .decay
        start := BitVec.ofNat 32 now
        dur := BitVec.ofNat 32 tDec }, false)
  else
    ({ ch with level := word (shape (lin (elapsed now ch.start) ch.dur.toNat) blend true) }, false)

/-- The Decay branch of ADV (R173, R176): end the cycle, or fall. `START_X` and `DUR_X` are left
unchanged when the cycle ends (D21). -/
def advDecay (now : Nat) (blend : Int) (ch : Channel) : Channel × Bool :=
  if elapsed now ch.start ≥ ch.dur.toNat then
    ({ ch with level := word 0, stage := .idle }, true)
  else
    ({ ch with level := word (shape (32768 - lin (elapsed now ch.start) ch.dur.toNat) blend false) }, false)

/-- `ADV(X, now, t_dec, blend)` (R173): the channel's new registers and its end-of-cycle bit. -/
def adv (now tDec : Nat) (blend : Int) (ch : Channel) : Channel × Bool :=
  match ch.stage with
  | .idle => advIdle ch
  | .attack => advAttack now tDec blend ch
  | .decay => advDecay now blend ch

end Sys2Proof.Machine
end

