-- ==== Sys2Proof/Machine/Flags.lean ====
section
/-! DEFINITION. The per-poll booleans (spec/10_state.md R37): gate classification, the gate and button
edges, the trigger decision (spec/44_trigger_aggregator.md R200 to R202) and the shared end-of-cycle
pulse (spec/45_update.md R220, step 5). There is no condition-code register. -/

namespace Sys2Proof.Machine

/-- `gate_high_X = (GATE_X > GATE_TH)`: signed and strict (R200). -/
def gateHigh (c : Config) (gate : Int) : Bool := decide (gate > c.gateTh)

/-- `gate_edge_X = gate_high_X and not GWH_X` (R200). -/
def gateEdge (high gwh : Bool) : Bool := high && !gwh

/-- `btn_edge = BTN and not BWP` (R201). -/
def btnEdge (btn bwp : Bool) : Bool := btn && !bwp

/-- `trig_X = gate_edge_X or btn_edge or pulse_edge` (R202). -/
def trigDecision (gateEdge btnEdge pulseEdge : Bool) : Bool := gateEdge || btnEdge || pulseEdge

/-- `PULSE_OUT <- eoc_A or eoc_B` (R220, step 5). -/
def pulseLevel (eocA eocB : Bool) : Bool := eocA || eocB

end Sys2Proof.Machine
end

