-- ==== Sys2Proof/Machine/Trigger.lean ====
section
/-! DEFINITION. The trigger aggregator and edge detector, micro-operation AGG
(spec/44_trigger_aggregator.md R200 to R203). It runs only inside UPDATE. -/

namespace Sys2Proof.Machine

/-- R200 for channel X: the gate edge against the latch `GWH_X`, and the latch's new value. -/
def gateDetect (x : ChannelId) (gate : Int) (s : State) : Bool × State :=
  let high := gateHigh s.config gate
  (gateEdge high (s.chan x).gwh, s.setChan x { s.chan x with gwh := high })

/-- R201: the button's press edge against the latch `BWP`, and the latch's new value. -/
def buttonDetect (btn : Bool) (s : State) : Bool × State := (btnEdge btn s.bwp, s.setBwp btn)

/-- R202: `PFLAG` is consumed and cleared. -/
def pulseConsume (s : State) : Bool × State := (s.pflag, s.setPflag false)

/-- `AGG` (R203): R200 for A, R200 for B, R201, then R202. Returns `trig_A`, `trig_B` and the state. -/
def agg (gateA gateB : Int) (btn : Bool) (s : State) : Bool × Bool × State :=
  let (edgeA, s) := gateDetect .a gateA s
  let (edgeB, s) := gateDetect .b gateB s
  let (edgeBtn, s) := buttonDetect btn s
  let (edgePulse, s) := pulseConsume s
  (trigDecision edgeA edgeBtn edgePulse, trigDecision edgeB edgeBtn edgePulse, s)

end Sys2Proof.Machine
end

