-- ==== Sys2Proof/Machine/Update.lean ====
section
/-! DEFINITION. The facade UPDATE (spec/45_update.md R220): one poll, in the seven steps of the rule. -/

namespace Sys2Proof.Machine

/-- Step 4 for channel X: ADV on its registers. Returns `eoc_X` and the state. -/
def advChan (x : ChannelId) (now tDec : Nat) (blend : Int) (s : State) : Bool × State :=
  ((adv now tDec blend (s.chan x)).2, s.setChan x (adv now tDec blend (s.chan x)).1)

/-- Step 3 for channel X: TRIG on its registers if its trigger decision is 1. -/
def trigChan (x : ChannelId) (fire : Bool) (now tAtt : Nat) (s : State) : State :=
  s.setChan x (trigIf fire now tAtt (s.chan x))

/-- Step 6 on one channel's registers: the level is clamped to `[0, ONE]` and written back (D14), and
converted to `VOUT_X`. -/
def emitOp (c : Config) (ch : Channel) : Channel :=
  { ch with
    level := word (clamp ch.level.toInt 0 32768)
    vout := word (vconv c (word (clamp ch.level.toInt 0 32768)).toInt) }

/-- Step 6 for channel X. -/
def emitChan (x : ChannelId) (s : State) : State := s.setChan x (emitOp s.config (s.chan x))

/-- The status registers of channel X: `EOC_X <- eoc_X`, `TRIG_X <- trig_X` (R32). -/
def statusChan (x : ChannelId) (eoc trig : Bool) (s : State) : State :=
  s.setChan x { s.chan x with eoc := eoc, trig := trig }

/-- The state after an UPDATE (R220). -/
def updateState (u : Upd) (s : State) : State :=
  -- 1. poll the pulse input
  let s := s.setPflag u.pedge
  -- 2. read the knobs once
  let tAtt := timeMap s.config u.potAtt
  let tDec := timeMap s.config u.potDec
  let blend : Int := u8ToQ15 u.potShape
  -- 3. aggregate the triggers and apply them
  let (trigA, trigB, s) := agg u.gateA u.gateB u.btn s
  let s := trigChan .a trigA u.now tAtt s
  let s := trigChan .b trigB u.now tAtt s
  -- 4. advance each channel
  let (eocA, s) := advChan .a u.now tDec blend s
  let (eocB, s) := advChan .b u.now tDec blend s
  -- 5. drive the shared pulse output
  let s := s.setPulseOut (pulseLevel eocA eocB)
  -- 6. clamp and convert
  let s := emitChan .a s
  let s := emitChan .b s
  -- 7. the LED collaborator reads VOUT_A and VOUT_B (R224); the status registers follow
  let s := statusChan .a eocA trigA s
  let s := statusChan .b eocB trigB s
  s.setErrc errNone

/-- `UPDATE` (R220): never an error, every field value is legal. -/
def execUpdate (u : Upd) (s : State) : Host.Outcome State Fault Refusal := .next (updateState u s)

end Sys2Proof.Machine
end

