-- ==== Sys2Proof/Machine/Dispatch.lean ====
section
/-! DEFINITION. One arm per command of the opcode map (spec/30_encoding.md R71). -/

namespace Sys2Proof.Machine

def exec (i : Instr) (s : State) : Host.Outcome State Fault Refusal :=
  match i with
  | .nop => Sys2Proof.Machine.execNop s
  | .reset => Sys2Proof.Machine.execReset s
  | .update u => Sys2Proof.Machine.execUpdate u s
  | .tmap k => Sys2Proof.Machine.execTmap k s
  | .u8q15 v => Sys2Proof.Machine.execU8q15 v s
  | .qmul a b => Sys2Proof.Machine.execQmul a b s
  | .lerp a b t => Sys2Proof.Machine.execLerp a b t s
  | .clamp v lo hi => Sys2Proof.Machine.execClamp v lo hi s
  | .shape pos blend isAttack => Sys2Proof.Machine.execShape pos blend isAttack s
  | .vconv level => Sys2Proof.Machine.execVconv level s

end Sys2Proof.Machine
end

