-- ==== Sys2Proof/Machine/Step.lean ====
section
/-! DEFINITION. One step: the oldest waiting command is taken, decoded and executed, whole and in order
(spec/00_scope.md R14; spec/20_memory.md R54, R58). -/

namespace Sys2Proof.Machine

/-- Execute a command the block has taken: an illegal one raises `E_ILLEGAL` (R302). -/
def runCommand (c : Command) (s : State) : Host.Outcome State Fault Refusal :=
  match decode c with
  | .ok i => exec i s
  | .error e => rejectCommand e s

/-- One step of the block: one command, if one waits. -/
def step (s : State) : Host.Outcome State Fault Refusal :=
  match fetch s with
  | some (c, s') => runCommand c s'
  | none => idleStep s

/-- The host issues the command whose bits are `w`, numbered as the opcode table numbers them, ahead of
any other; the next step takes and runs exactly it. -/
def State.withFetchWord (s : State) (nbits w : Nat) : State := issueNext (commandOfTableWord nbits w) s

end Sys2Proof.Machine
end

