-- ==== Sys2Proof/Machine/Assembler.lean ====
section
/-! DEFINITION. The command notation of spec/30_encoding.md R82 and R83: one command per line, from text to
an instruction, and from there to the command byte and frame. What the notation leaves open (blanks, the
order of fields, a field given twice) is settled in notes/assumptions/6.md. -/

namespace Sys2Proof.Machine

/-- Why a line is not a command of R82 or R83. -/
inductive AsmError where
  /-- The first word is no mnemonic. -/
  | unknownMnemonic
  /-- An operand is no number. -/
  | badNumber
  /-- A number is outside the range of its field. -/
  | outOfRange
  /-- A field is not of the form `key=value`, or its key is not one of the command's. -/
  | badField
  /-- A field is given twice. -/
  | repeatedField
  /-- `now=` is missing. -/
  | missingNow
  /-- A command has too few or too many operands. -/
  | operandCount
  /-- A gate voltage whose product with 32768 is not an integer. -/
  | fractionalCode
  deriving DecidableEq, Repr

/-- A blank between words. -/
def isBlank (c : Char) : Bool := c == ' ' || c == '\t' || c == '\r'

/-- Cut a text at every character that satisfies `p`; `acc` is the piece being read, reversed. -/
def splitWhen (p : Char → Bool) : List Char → List Char → List (List Char)
  | acc, [] => [acc.reverse]
  | acc, c :: cs => if p c then acc.reverse :: splitWhen p [] cs else splitWhen p (c :: acc) cs

/-- The words of a text. -/
def wordsOf (l : List Char) : List (List Char) := (splitWhen isBlank [] l).filter fun w => !w.isEmpty

/-- A text without the blanks at its two ends. -/
def trimBlanks (l : List Char) : List Char := ((l.dropWhile isBlank).reverse.dropWhile isBlank).reverse

/-- `;` starts a comment (R82). -/
def stripComment (l : List Char) : List Char := l.takeWhile fun c => c != ';'

/-- The value of a digit, decimal or hexadecimal. -/
def digitValue (c : Char) : Option Nat :=
  if '0' ≤ c ∧ c ≤ '9' then some (c.toNat - 48)
  else if 'a' ≤ c ∧ c ≤ 'f' then some (c.toNat - 87)
  else if 'A' ≤ c ∧ c ≤ 'F' then some (c.toNat - 55)
  else none

/-- Continue reading digits in a base. -/
def readDigits (base : Nat) : Nat → List Char → Option Nat
  | acc, [] => some acc
  | acc, c :: cs =>
    match digitValue c with
    | some d => if d < base then readDigits base (acc * base + d) cs else none
    | none => none

/-- A nonempty run of digits in a base. -/
def readNat (base : Nat) (l : List Char) : Option Nat := if l.isEmpty then none else readDigits base 0 l

/-- An unsigned number: decimal, or hexadecimal with a `0x` prefix (R82). -/
def readUnsigned : List Char → Option Nat
  | '0' :: 'x' :: rest => readNat 16 rest
  | l => readNat 10 l

/-- A number, which may carry a leading `-` (R82). -/
def readNumber : List Char → Option Int
  | '-' :: rest => (readUnsigned rest).map fun n => -(n : Int)
  | l => (readUnsigned l).map fun n => (n : Int)

/-- A decimal fraction as a numerator over a power of ten. -/
def readFraction (l : List Char) : Option (Nat × Nat) :=
  match splitWhen (· == '.') [] l with
  | [whole] => (readNat 10 whole).map fun n => (n, 1)
  | [whole, frac] =>
    match readNat 10 whole, readNat 10 frac with
    | some n, some m => some (n * 10 ^ frac.length + m, 10 ^ frac.length)
    | _, _ => none
  | _ => none

/-- An unsigned voltage as a gate code: `volts * 32768`, which must be an integer (R82). -/
def voltsCode (l : List Char) : Except AsmError Int :=
  match readFraction l with
  | none => .error .badNumber
  | some (n, d) => 
    if n * CODES_PER_VOLT % d = 0 then .ok ((n * CODES_PER_VOLT / d : Nat) : Int) else .error .fractionalCode

/-- A number as an operand. -/
def numberOperand (l : List Char) : Except AsmError Int :=
  match readNumber l with
  | some v => .ok v
  | none => .error .badNumber

/-- A gate value: a number, or volts with a `V` suffix (R82). -/
def gateOperand (l : List Char) : Except AsmError Int :=
  match l.reverse with
  | 'V' :: rest =>
    match rest.reverse with
    | '-' :: volts => (voltsCode volts).map fun c => -c
    | volts => voltsCode volts
  | _ => numberOperand l

/-- Require a value to be one its field holds. -/
def requireRange (ok : Bool) (v : Int) : Except AsmError Int := if ok then .ok v else .error .outOfRange

/-- A `<s32>` operand. -/
def s32Operand (l : List Char) : Except AsmError Int := do
  let v ← numberOperand l
  requireRange (isS32 v) v

/-- A field `key=value`. -/
def readField (w : List Char) : Except AsmError (List Char × List Char) :=
  match splitWhen (· == '=') [] w with
  | [key, value] => .ok (key, value)
  | _ => .error .badField

/-- The fields of an UPDATE. -/
def updateKeys : List (List Char) :=
  ["now".toList, "att".toList, "dec".toList, "shape".toList, "ga".toList, "gb".toList, "btn".toList, "pedge".toList]

/-- Read `key=value` words: each key one of `keys`, none twice. -/
def readFields (keys : List (List Char)) : List (List Char) → Except AsmError (List (List Char × List Char))
  | [] => .ok []
  | w :: ws => do
    let field ← readField w
    let rest ← readFields keys ws
    if !keys.contains field.1 then .error .badField
    else if (rest.map Prod.fst).contains field.1 then .error .repeatedField
    else .ok (field :: rest)

/-- A field's unsigned value; an omitted field is 0 (R82). -/
def natField (fields : List (List Char × List Char)) (key : String) (ok : Nat → Bool) : Except AsmError Nat :=
  match fields.lookup key.toList with
  | none => .ok 0
  | some value => do
    let v ← numberOperand value
    let v ← requireRange (decide (0 ≤ v) && ok v.toNat) v
    .ok v.toNat

/-- A gate field's value; an omitted field is 0 (R82). -/
def gateField (fields : List (List Char × List Char)) (key : String) : Except AsmError Int :=
  match fields.lookup key.toList with
  | none => .ok 0
  | some value => do
    let v ← gateOperand value
    requireRange (isS32 v) v

/-- An UPDATE from its fields; `now=` is not optional (R82). -/
def updateOfFields (fields : List (List Char × List Char)) : Except AsmError Upd :=
  if (fields.lookup "now".toList).isNone then .error .missingNow
  else do
    let now ← natField fields "now" isU32
    let att ← natField fields "att" isU8
    let dec ← natField fields "dec" isU8
    let shape ← natField fields "shape" isU8
    let btn ← natField fields "btn" fun v => decide (v ≤ 1)
    let pedge ← natField fields "pedge" fun v => decide (v ≤ 1)
    let ga ← gateField fields "ga"
    let gb ← gateField fields "gb"
    .ok { now := now, potAtt := att, potDec := dec, potShape := shape, btn := btn == 1, pedge := pedge == 1,
          gateA := ga, gateB := gb }

/-- UPDATE, POLL and TRIGALL take fields; every other mnemonic takes operands separated by commas. -/
def assembleFields (keys : List (List Char)) (text : List Char) : Except AsmError Upd := do
  let fields ← readFields keys (wordsOf text)
  updateOfFields fields

/-- The operands of an evaluation command, in order (R82). -/
def evalOperands : List (List Char) → Except AsmError (List Int)
  | [] => .ok []
  | w :: ws => do
    let v ← s32Operand (trimBlanks w)
    let rest ← evalOperands ws
    .ok (v :: rest)

/-- An evaluation command with its operands; `none` if their number is wrong or it is no such command. R82 says
"missing operands are 0" and writes each template's operands without brackets, so it leaves open whether a
line with too few of them assembles. DESIGN CHOICE, log entry 6: the missing operands that are 0 are the
arguments the command does not have, and a line with too few operands does not assemble. -/
def evalInstr (op : Op) (args : List Int) : Option Instr :=
  match op, args with
  | .tmap, [k] => some (.tmap k)
  | .u8q15, [v] => some (.u8q15 v)
  | .qmul, [a, b] => some (.qmul a b)
  | .lerp, [a, b, t] => some (.lerp a b t)
  | .clamp, [v, lo, hi] => some (.clamp v lo hi)
  | .shape, [pos, blend, isAttack] => some (.shape pos blend isAttack)
  | .vconv, [level] => some (.vconv level)
  | _, _ => none

/-- Assemble an evaluation command. -/
def assembleEval (op : Op) (text : List Char) : Except AsmError Instr := do
  let args ← evalOperands (splitWhen (· == ',') [] text)
  match evalInstr op args with
  | some i => .ok i
  | none => .error .operandCount

/-- A command without operands. -/
def assemblePlain (i : Instr) (text : List Char) : Except AsmError Instr :=
  if (wordsOf text).isEmpty then .ok i else .error .operandCount

/-- Assemble a mnemonic and the text after it (R82, R83). -/
def assembleMnemonic (name text : List Char) : Except AsmError Instr :=
  if name = "NOP".toList then assemblePlain .nop text
  else if name = "RESET".toList then assemblePlain .reset text
  else if name = "UPDATE".toList then (assembleFields updateKeys text).map .update
  else if name = "POLL".toList then (assembleFields ["now".toList] text).map fun u => .poll u.now
  else if name = "TRIGALL".toList then (assembleFields ["now".toList] text).map fun u => .trigall u.now
  else if name = "TMAP".toList then assembleEval .tmap text
  else if name = "U8Q15".toList then assembleEval .u8q15 text
  else if name = "QMUL".toList then assembleEval .qmul text
  else if name = "LERP".toList then assembleEval .lerp text
  else if name = "CLAMP".toList then assembleEval .clamp text
  else if name = "SHAPE".toList then assembleEval .shape text
  else if name = "VCONV".toList then assembleEval .vconv text
  else .error .unknownMnemonic

/-- Assemble one line; a blank line or a comment is no command. -/
def assembleLine (line : List Char) : Except AsmError (Option Instr) :=
  let text := (stripComment line).dropWhile isBlank
  if text.isEmpty then .ok none
  else (assembleMnemonic (text.takeWhile fun c => !isBlank c) (text.dropWhile fun c => !isBlank c)).map some

/-- Assemble lines to the commands a host issues. -/
def assembleLines : List (List Char) → Except AsmError (List Command)
  | [] => .ok []
  | l :: ls => do
    let i ← assembleLine l
    let rest ← assembleLines ls
    match i with
    | some i => .ok (encode i :: rest)
    | none => .ok rest

/-- Assemble a text, one command per line (R82). -/
def assemble (text : List Char) : Except AsmError (List Command) := assembleLines (splitWhen (· == '\n') [] text)

end Sys2Proof.Machine
end

