-- ==== Sys2Proof/Safety.lean ====
section
/-! DEFINITION. What a good state and a good host are: the state invariants of spec/10_state.md R29, four
facts about the status registers, the states a fault-free host program stays in
(spec/93_implementation_defined.md I9), and the host's duty for the clock (spec/70_reset_and_hazards.md
R360). -/

namespace Sys2Proof.Machine

/-- R29, items 1 to 4 and 6, for one channel. -/
structure Channel.Inv (c : Config) (ch : Channel) : Prop where
  /-- Item 1, low end: `0 <= LEVEL_X`. -/
  level_nonneg : 0 ≤ ch.level.toInt
  /-- Item 1, high end: `LEVEL_X <= ONE`. -/
  level_le_one : ch.level.toInt ≤ 32768
  /-- Item 2: Idle implies level 0. -/
  idle_level : ch.stage = .idle → ch.level = 0#32
  /-- Item 3, low end: `T_FLOOR <= DUR_X`. -/
  floor_le_dur : c.tFloor ≤ ch.dur.toNat
  /-- Item 3, high end: `DUR_X <= T_CEIL`. -/
  dur_le_ceil : ch.dur.toNat ≤ c.tCeil
  /-- Item 4: the stage code is 0, 1 or 2. -/
  stage_code : ch.stage.code = 0#2 ∨ ch.stage.code = 1#2 ∨ ch.stage.code = 2#2
  /-- Item 6: `VOUT_X = vconv(LEVEL_X)`. -/
  vout_eq : ch.vout = word (vconv c ch.level.toInt)

/-- The state invariants of R29, which hold after every command. -/
structure State.Inv (s : State) : Prop where
  /-- Items 1 to 4 and 6, for each channel. -/
  channel : ∀ x, Channel.Inv s.config (s.chan x)
  /-- Item 5: `PFLAG = 0` between commands. -/
  pflag_clear : s.pflag = false

/-- Four facts about the status registers: `TRIG_X` set implies Attack at level 0, `EOC_X` set implies Idle,
`PULSE_OUT` is the OR of the end-of-cycle flags, and `ERRC` is not 3 (R34). The first two are one-way: they
hold with both flags 0, as after a RESET. Derived from R170, R173, R220 and R301. -/
structure State.StatusInv (s : State) : Prop where
  trig_attack : ∀ x, (s.chan x).trig = true → (s.chan x).stage = .attack ∧ (s.chan x).level = 0#32
  eoc_idle : ∀ x, (s.chan x).eoc = true → (s.chan x).stage = .idle
  pulse_eq : s.pulseOut = ((s.chan .a).eoc || (s.chan .b).eoc)
  errc_ne_three : s.errc ≠ 3#2

/-- The last command raised no error. A host program with a bug is one that leaves this set (I9). -/
def State.ErrorFree (s : State) : Prop := s.errc = errNone

/-- A safe state: the invariants hold and no error is reported. -/
def State.Safe (s : State) : Prop := s.Inv ∧ s.ErrorFree

/-- The operands of a command lie in its domain, so a host that issues it has no bug (R303, I9, I10). -/
def inDomain : Instr → Bool
  | .nop => true
  | .reset => true
  | .update _ => true
  | .tmap k => tmapDomain k
  | .u8q15 v => u8q15Domain v
  | .qmul a b => qmulDomain a b
  | .lerp a b t => lerpDomain a b t
  | .clamp _ lo hi => clampDomain lo hi
  | .shape pos blend isAttack => shapeDomain pos blend isAttack
  | .vconv _ => true

/-- An UPDATE triggers channel X: its own gate rises above the threshold, the button is newly pressed, or
the pulse input saw an edge (R200 to R202). -/
abbrev Fires (u : Upd) (s : State) (x : ChannelId) : Prop :=
  (s.config.gateTh < u.gate x ∧ (s.chan x).gwh = false) ∨ (u.btn = true ∧ s.bwp = false) ∨ u.pedge = true

/-- An UPDATE in which no source of channel X is high: its gate is not above the threshold, the button is
up and no pulse edge was seen. -/
abbrev Quiet (u : Upd) (c : Config) (x : ChannelId) : Prop :=
  u.gate x ≤ c.gateTh ∧ u.btn = false ∧ u.pedge = false

/-- True microseconds `began` and `last` fit channel `ch`: its stage began at `began`, the last UPDATE was
at `last`, and the stage had not then run its duration. `START_X` holds `began` modulo 2^32 (R171). -/
structure Channel.Tracks (ch : Channel) (began last : Nat) : Prop where
  start_eq : ch.start.toNat = began % 4294967296
  began_le : began ≤ last
  not_over : last - began < ch.dur.toNat

/-- A channel that is active fits the true times `began` and `last`; nothing is asked of an Idle one. -/
abbrev Channel.OnClock (ch : Channel) (began last : Nat) : Prop :=
  ch.stage ≠ .idle → ch.Tracks began last

/-- An UPDATE begins a stage of channel X: it triggers X, or X is in Attack and its time is up (R170, R175). -/
abbrev Begins (u : Upd) (s : State) (x : ChannelId) : Prop :=
  Fires u s x ∨ ((s.chan x).stage = .attack ∧ (s.chan x).dur.toNat ≤ elapsed u.now (s.chan x).start)

/-- Channel X is Idle at level 0 and every waiting UPDATE is quiet for it; other commands may wait too. -/
structure State.QuietFor (s : State) (x : ChannelId) : Prop where
  idle : (s.chan x).stage = .idle
  level_zero : (s.chan x).level = 0#32
  waiting_quiet : ∀ c ∈ s.cmds, ∀ u, decode c = .ok (.update u) → Quiet u s.config x

end Sys2Proof.Machine
end

