-- ==== Sys2Proof/Certificates/Slice0/Obligations.lean ====
section
/-! DEFINITION. The statements put to the provers. Each docstring names the rule of spec/ it formalises.
`word v` is the 32-bit register contents of the integer `v`. A statement that says an instruction is
`.next` of a record update states its frame: every register not named keeps its value. -/

open Sys2Proof Sys2Proof.Machine

/-! ### Reset and the control commands -/

/-- R40, R252: RESET is CMD 0x01 with any operand frame; the state before any command and the state RESET
leaves, register by register; RESET twice equals RESET once; a gate or button already high at the first
UPDATE after it triggers. The default parameters stand for `T_FLOOR = 1000` and `V_CENTER = 163840` in the
second part; RESET is stated for every parameter set. Four clauses are the model's choice and no rule's: the
parameters are a field with default values at reset (notes/assumptions/1.md, DESIGN CHOICE), the queue is
empty at reset (2.md, DESIGN CHOICE), and RESET keeps the parameters and the waiting commands (9.md,
DEDUCED). -/
def Obligations.ResetGivesEveryRegisterItsValue : Prop :=
  (∀ f, decode ⟨0x01#8, f⟩ = .ok .reset) ∧
  (State.reset.config = Config.default ∧ State.reset.cmds = [] ∧ State.reset.bwp = false ∧
    State.reset.pflag = false ∧ State.reset.pulseOut = false ∧ State.reset.res = 0#32 ∧ State.reset.errc = 0#2 ∧
    ∀ x, State.reset.chan x =
      { stage := .idle, level := 0#32, start := 0#32, dur := 1000#32, gwh := false, vout := 163840#32, eoc := false,
        trig := false }) ∧
  (∀ s, ∃ t, exec .reset s = .next t ∧ exec .reset t = .next t ∧ t.config = s.config ∧ t.cmds = s.cmds ∧
    t.bwp = false ∧ t.pflag = false ∧ t.pulseOut = false ∧ t.res = 0#32 ∧ t.errc = 0#2 ∧
    (∀ x, t.chan x =
      { stage := .idle, level := 0#32, start := 0#32, dur := BitVec.ofNat 32 s.config.tFloor, gwh := false,
        vout := word (vconv s.config 0), eoc := false, trig := false }) ∧
    ∀ u x, s.config.gateTh < u.gate x ∨ u.btn = true →
      ∃ t', exec (.update u) t = .next t' ∧ (t'.chan x).trig = true)

/-- R252 and R351: what RESET leaves depends on nothing but the parameters and the waiting commands: two
states with the same of both go to one state, whatever their envelopes were doing. That both are kept is the
model's choice (notes/assumptions/9.md, DEDUCED). -/
def Obligations.ResetForgetsTheEnvelope : Prop :=
  ∀ s s' : State, s.config = s'.config → s.cmds = s'.cmds → exec .reset s = exec .reset s'

/-- R250: NOP is CMD 0x00 with any operand frame; it writes `ERRC <- 0` and nothing else, so a NOP before an
UPDATE leaves the UPDATE's result unchanged. -/
def Obligations.NopOnlyClearsTheErrorCode : Prop :=
  (∀ f, decode ⟨0x00#8, f⟩ = .ok .nop) ∧
  (∀ s, exec .nop s = .next { s with errc := 0#2 }) ∧
  ∀ u s, exec (.update u) { s with errc := 0#2 } = exec (.update u) s

/-! ### The evaluation commands -/

/-- R101: QMUL is CMD 0x05; `ARG2` is ignored; in the domain `RES` is the floor of `a*b / 2^15`, which fits
s32; outside it the command raises `E_DOMAIN`. -/
def Obligations.QmulMultipliesInItsDomain : Prop :=
  (∀ f, decode ⟨0x05#8, f⟩ = .ok (.qmul (f.extractLsb' 0 32).toInt (f.extractLsb' 32 32).toInt)) ∧
  ∀ a b s,
    (-32768 ≤ a ∧ a ≤ 32768 ∧ -32768 ≤ b ∧ b ≤ 32768 →
      exec (.qmul a b) s = .next { s with res := word (a * b / 32768), errc := 0#2 } ∧
      (word (a * b / 32768)).toInt = a * b / 32768) ∧
    (¬(-32768 ≤ a ∧ a ≤ 32768 ∧ -32768 ≤ b ∧ b ≤ 32768) → exec (.qmul a b) s = .next { s with errc := 2#2 })

/-- R104: LERP is CMD 0x06; in the domain `RES` is `a` plus the floor of `(b-a)*t / 2^15`, which fits s32;
outside it the command raises `E_DOMAIN`. -/
def Obligations.LerpBlendsInItsDomain : Prop :=
  (∀ f, decode ⟨0x06#8, f⟩ =
    .ok (.lerp (f.extractLsb' 0 32).toInt (f.extractLsb' 32 32).toInt (f.extractLsb' 64 32).toInt)) ∧
  ∀ a b t s,
    (0 ≤ a ∧ a ≤ 32768 ∧ 0 ≤ b ∧ b ≤ 32768 ∧ 0 ≤ t ∧ t ≤ 32768 →
      exec (.lerp a b t) s = .next { s with res := word (a + (b - a) * t / 32768), errc := 0#2 } ∧
      (word (a + (b - a) * t / 32768)).toInt = a + (b - a) * t / 32768) ∧
    (¬(0 ≤ a ∧ a ≤ 32768 ∧ 0 ≤ b ∧ b ≤ 32768 ∧ 0 ≤ t ∧ t ≤ 32768) →
      exec (.lerp a b t) s = .next { s with errc := 2#2 })

/-- R107 with R106: CLAMP is CMD 0x07; for `lo <= hi`, `RES` is `lo` below the range, `hi` above it and `v`
inside it; for `lo > hi` the command raises `E_DOMAIN`. -/
def Obligations.ClampLimitsToTheRange : Prop :=
  (∀ f, decode ⟨0x07#8, f⟩ =
    .ok (.clamp (f.extractLsb' 0 32).toInt (f.extractLsb' 32 32).toInt (f.extractLsb' 64 32).toInt)) ∧
  ∀ v lo hi s,
    (lo ≤ hi → v < lo → exec (.clamp v lo hi) s = .next { s with res := word lo, errc := 0#2 }) ∧
    (lo ≤ hi → hi < v → exec (.clamp v lo hi) s = .next { s with res := word hi, errc := 0#2 }) ∧
    (lo ≤ v → v ≤ hi → exec (.clamp v lo hi) s = .next { s with res := word v, errc := 0#2 }) ∧
    (hi < lo → exec (.clamp v lo hi) s = .next { s with errc := 2#2 })

/-- R111 with R110: U8Q15 is CMD 0x04; `ARG1` and `ARG2` are ignored; for `0 <= v <= 255`, `RES` is the floor
of `v*ONE / 255`; outside it the command raises `E_DOMAIN`. -/
def Obligations.U8q15ConvertsAKnob : Prop :=
  (∀ f, decode ⟨0x04#8, f⟩ = .ok (.u8q15 (f.extractLsb' 0 32).toInt)) ∧
  ∀ v s,
    (0 ≤ v ∧ v ≤ 255 → exec (.u8q15 v) s = .next { s with res := word (v * 32768 / 255), errc := 0#2 }) ∧
    (¬(0 ≤ v ∧ v ≤ 255) → exec (.u8q15 v) s = .next { s with errc := 2#2 })

/-- R131 with R130, for every parameter set: TMAP is CMD 0x03; `ARG1` and `ARG2` are ignored; for
`0 <= k <= 255`, `RES` is the cubic map of the knob and reads non-negative; outside it the command raises
`E_DOMAIN`. -/
def Obligations.TmapMapsAKnobToADuration : Prop :=
  (∀ f, decode ⟨0x03#8, f⟩ = .ok (.tmap (f.extractLsb' 0 32).toInt)) ∧
  ∀ k s,
    (0 ≤ k ∧ k ≤ 255 →
      exec (.tmap k) s =
        .next { s with
          res := word (s.config.tFloor + k * k * k * ((s.config.tCeil : Int) - s.config.tFloor) / 16581375)
          errc := 0#2 } ∧
      (word (s.config.tFloor + k * k * k * ((s.config.tCeil : Int) - s.config.tFloor) / 16581375)).toInt =
        s.config.tFloor + k * k * k * ((s.config.tCeil : Int) - s.config.tFloor) / 16581375) ∧
    (¬(0 ≤ k ∧ k ≤ 255) → exec (.tmap k) s = .next { s with errc := 2#2 })

/-- R151 with R150: SHAPE is CMD 0x08; in the domain `RES` is the blend of `pos` and the quadratic position
of the direction, and fits s32; outside it the command raises `E_DOMAIN`. -/
def Obligations.ShapeBlendsLineAndCurve : Prop :=
  (∀ f, decode ⟨0x08#8, f⟩ =
    .ok (.shape (f.extractLsb' 0 32).toInt (f.extractLsb' 32 32).toInt (f.extractLsb' 64 32).toInt)) ∧
  ∀ pos blend s,
    (0 ≤ pos ∧ pos ≤ 32768 ∧ 0 ≤ blend ∧ blend ≤ 32768 →
      (let v := pos + (pos * pos / 32768 - pos) * blend / 32768
       exec (.shape pos blend 1) s = .next { s with res := word v, errc := 0#2 } ∧ (word v).toInt = v) ∧
      (let v := pos + (32768 - (32768 - pos) * (32768 - pos) / 32768 - pos) * blend / 32768
       exec (.shape pos blend 0) s = .next { s with res := word v, errc := 0#2 } ∧ (word v).toInt = v)) ∧
    ∀ dir, ¬(0 ≤ pos ∧ pos ≤ 32768 ∧ 0 ≤ blend ∧ blend ≤ 32768 ∧ (dir = 0 ∨ dir = 1)) →
      exec (.shape pos blend dir) s = .next { s with errc := 2#2 }

/-- R222 with R221, for every parameter set: VCONV is CMD 0x09; `ARG1` and `ARG2` are ignored; for every
operand `RES` is the code of the level clamped to `[0, ONE]`, clamped again to `[V_MIN, V_MAX]`. -/
def Obligations.VconvConvertsEveryLevel : Prop :=
  (∀ f, decode ⟨0x09#8, f⟩ = .ok (.vconv (f.extractLsb' 0 32).toInt)) ∧
  ∀ level s,
    exec (.vconv level) s =
      .next { s with
        res :=
          word (max (s.config.vMin : Int)
            (min (s.config.vCenter + s.config.vGain * max 0 (min level 32768)) (s.config.vMax : Int)))
        errc := 0#2 }

/-! ### The pure functions -/

/-- R100: `q15_mul` is the floor of the product over 2^15; in `[-ONE, ONE]` the product is at most 2^30 in
magnitude and the result stays in `[-ONE, ONE]`; `ONE` is its identity. -/
def Obligations.Q15MulFloorsAndStaysInRange : Prop :=
  (∀ a b, q15Mul a b * 32768 ≤ a * b ∧ a * b < (q15Mul a b + 1) * 32768) ∧
  (∀ x, q15Mul 32768 x = x) ∧
  ∀ a b, -32768 ≤ a → a ≤ 32768 → -32768 ≤ b → b ≤ 32768 →
    -1073741824 ≤ a * b ∧ a * b ≤ 1073741824 ∧ -32768 ≤ q15Mul a b ∧ q15Mul a b ≤ 32768

/-- R103: `lerp` starts at `a`, ends at `b`, lies between them in `[0, ONE]`, and its floor rounds down, so
toward `b` when `b < a` and toward `a` when `b > a`. -/
def Obligations.LerpRunsFromOneEndToTheOther : Prop :=
  (∀ a b, lerp a b 0 = a ∧ lerp a b 32768 = b) ∧
  (∀ a b t, (lerp a b t - a) * 32768 ≤ (b - a) * t ∧ (b - a) * t < (lerp a b t - a + 1) * 32768) ∧
  ∀ a b t, 0 ≤ a → a ≤ 32768 → 0 ≤ b → b ≤ 32768 → 0 ≤ t → t ≤ 32768 →
    min a b ≤ lerp a b t ∧ lerp a b t ≤ max a b

/-- R110: the knob conversion is `v*ONE // 255`, fits u32, sends 0 to 0 and 255 to `ONE`, and every step of
the knob adds 128 or 129. -/
def Obligations.U8ToQ15StepsBy128Or129 : Prop :=
  u8ToQ15 0 = 0 ∧ u8ToQ15 255 = 32768 ∧
  ∀ v, v ≤ 255 → u8ToQ15 v = v * 32768 / 255 ∧ v * 32768 ≤ 8355840 ∧
    (v < 255 → u8ToQ15 (v + 1) = u8ToQ15 v + 128 ∨ u8ToQ15 (v + 1) = u8ToQ15 v + 129)

/-- R130: the time map's range, ends and order for every parameter set, and the widths of its product.
R130's `time_map(1) = T_FLOOR` holds of the default parameters and of every parameter set whose span is
below 255^3, not of all (notes/assumptions/8.md). -/
def Obligations.TimeMapIsMonotoneBetweenItsBounds : Prop :=
  (∀ (c : Config) k, k ≤ 255 → c.tFloor ≤ timeMap c k ∧ timeMap c k ≤ c.tCeil ∧ timeMap c k ≠ 0) ∧
  (∀ c : Config, timeMap c 0 = c.tFloor ∧ timeMap c 255 = c.tCeil ∧
    (c.tCeil - c.tFloor < 16581375 → timeMap c 1 = c.tFloor)) ∧
  timeMap Config.default 1 = 1000 ∧
  (∀ (c : Config) j k, j ≤ k → k ≤ 255 → timeMap c j ≤ timeMap c k) ∧
  (∀ (c : Config) k, k ≤ 255 →
    timeMap c k = c.tFloor + k * k * k * (c.tCeil - c.tFloor) / 16581375 ∧
    k * k * k * (c.tCeil - c.tFloor) < 2 ^ 55) ∧
  ∀ k, k ≤ 255 → k * k * k * (Config.default.tCeil - Config.default.tFloor) < 2 ^ 47

/-- R152, items 1 to 4: the shape curve stays in `[0, ONE]`, is the line at blend 0, is pinned at both ends
in both directions, and bends below the line in Attack and above it in Decay. -/
def Obligations.ShapeStaysInRangeAndIsPinned : Prop :=
  ∀ pos blend, 0 ≤ pos → pos ≤ 32768 → 0 ≤ blend → blend ≤ 32768 →
    (∀ dir, 0 ≤ shape pos blend dir ∧ shape pos blend dir ≤ 32768 ∧ shape pos 0 dir = pos ∧
      shape 0 blend dir = 0 ∧ shape 32768 blend dir = 32768) ∧
    shape pos blend true ≤ pos ∧ pos ≤ shape pos blend false

/-- R152, item 5: for every fixed blend in `[0, ONE]` and both directions, the shape curve is non-decreasing
in its position. -/
def Obligations.ShapeIsNonDecreasingInPosition : Prop :=
  ∀ p q blend dir, 0 ≤ p → p ≤ q → q ≤ 32768 → 0 ≤ blend → blend ≤ 32768 →
    shape p blend dir ≤ shape q blend dir

/-- R172: the linear position of a running stage lies in `[0, ONE)`, is non-decreasing in elapsed time, and
the guard `max(dur, 1)` never changes it. -/
def Obligations.LinearPositionStaysBelowOne : Prop :=
  (∀ e d, e < d → lin e d < 32768 ∧ lin e d = e * 32768 / d) ∧
  ∀ e e' d, e ≤ e' → e' < d → lin e d ≤ lin e' d

/-- R171: elapsed time is the u32 difference modulo 2^32, and the true time whenever that is below 2^32, also
across a wrap of the clock. `began` and `now` are true microseconds. -/
def Obligations.ElapsedIsTrueTimeAcrossAWrap : Prop :=
  (∀ (now : Nat) (start : Word), (elapsed now start : Int) = ((now : Int) - start.toNat) % 4294967296) ∧
  ∀ (began now : Nat) (start : Word), start.toNat = began % 4294967296 → began ≤ now → now - began < 4294967296 →
    elapsed (now % 4294967296) start = now - began

/-! ### UPDATE -/

/-- R200, R201, R202: an UPDATE completes from every state; each channel's trigger decision is the OR of its
own gate's rising edge, the button's press edge and the pulse edge; each latch takes the present level
whether or not anything fired; the pulse flag is cleared. -/
def Obligations.UpdateComputesTriggersAndLatches : Prop :=
  ∀ u s, ∃ t, exec (.update u) s = .next t ∧ t.bwp = u.btn ∧ t.pflag = false ∧
    ∀ x, ((t.chan x).gwh = true ↔ s.config.gateTh < u.gate x) ∧
      ((t.chan x).trig = true ↔
        (s.config.gateTh < u.gate x ∧ (s.chan x).gwh = false) ∨ (u.btn = true ∧ s.bwp = false) ∨ u.pedge = true)

/-- R170 with R173: an UPDATE that triggers a channel restarts it from any stage: Attack from `NOW`, with the
duration of this UPDATE's attack knob, at level 0, and no end-of-cycle. -/
def Obligations.TriggeredChannelRestartsItsAttack : Prop :=
  ∀ u s x, u.wellFormed = true → Fires u s x →
    ∃ t, exec (.update u) s = .next t ∧
      t.chan x =
        { stage := .attack, level := 0#32, start := BitVec.ofNat 32 u.now,
          dur := BitVec.ofNat 32 (timeMap s.config u.potAtt), gwh := decide (s.config.gateTh < u.gate x),
          vout := word (vconv s.config 0), eoc := false, trig := true }

/-- R174: an untriggered Idle channel stays Idle at level 0 with no end-of-cycle. -/
def Obligations.UntriggeredIdleChannelStaysIdle : Prop :=
  ∀ u s x, ¬Fires u s x → (s.chan x).stage = .idle →
    ∃ t, exec (.update u) s = .next t ∧
      t.chan x =
        { s.chan x with
          level := 0#32, gwh := decide (s.config.gateTh < u.gate x), vout := word (vconv s.config 0),
          eoc := false, trig := false }

/-- R173, R175: an untriggered channel in Attack whose time is up snaps to `ONE` and enters Decay at this
UPDATE's `NOW` with this UPDATE's decay time; otherwise its level is the shaped linear position and nothing
else of it changes. -/
def Obligations.AttackRisesThenSnapsIntoDecay : Prop :=
  ∀ u s x, u.wellFormed = true → ¬Fires u s x → (s.chan x).stage = .attack →
    ∃ t, exec (.update u) s = .next t ∧
      ((s.chan x).dur.toNat ≤ elapsed u.now (s.chan x).start →
        t.chan x =
          { stage := .decay, level := 32768#32, start := BitVec.ofNat 32 u.now,
            dur := BitVec.ofNat 32 (timeMap s.config u.potDec), gwh := decide (s.config.gateTh < u.gate x),
            vout := word (vconv s.config 32768), eoc := false, trig := false }) ∧
      (elapsed u.now (s.chan x).start < (s.chan x).dur.toNat →
        let level := shape (lin (elapsed u.now (s.chan x).start) (s.chan x).dur.toNat) (u8ToQ15 u.potShape) true
        t.chan x =
          { s.chan x with
            level := word level, gwh := decide (s.config.gateTh < u.gate x), vout := word (vconv s.config level),
            eoc := false, trig := false })

/-- R173, R176: an untriggered channel in Decay whose time is up goes Idle at level 0 and signals
end-of-cycle, its start time and duration unchanged; otherwise its level is the shaped falling position and
nothing else of it changes. -/
def Obligations.DecayFallsThenEndsTheCycle : Prop :=
  ∀ u s x, u.wellFormed = true → ¬Fires u s x → (s.chan x).stage = .decay →
    ∃ t, exec (.update u) s = .next t ∧
      ((s.chan x).dur.toNat ≤ elapsed u.now (s.chan x).start →
        t.chan x =
          { s.chan x with
            stage := .idle, level := 0#32, gwh := decide (s.config.gateTh < u.gate x),
            vout := word (vconv s.config 0), eoc := true, trig := false }) ∧
      (elapsed u.now (s.chan x).start < (s.chan x).dur.toNat →
        let level :=
          shape (32768 - lin (elapsed u.now (s.chan x).start) (s.chan x).dur.toNat) (u8ToQ15 u.potShape) false
        t.chan x =
          { s.chan x with
            level := word level, gwh := decide (s.config.gateTh < u.gate x), vout := word (vconv s.config level),
            eoc := false, trig := false })

/-- R220, steps 5 and 6, R31, R33: after an UPDATE from any state, with any operands, each level is in
`[0, ONE]` and each output code is the conversion of its level, the pulse output is the OR of the
end-of-cycle flags, `ERRC` is 0, and `RES`, the parameters and the waiting commands are unchanged. The last
two are the model's own fields (notes/assumptions/1.md, 2.md, DESIGN CHOICE). -/
def Obligations.UpdateDrivesTheOutputs : Prop :=
  ∀ u s, ∃ t, exec (.update u) s = .next t ∧ t.pulseOut = ((t.chan .a).eoc || (t.chan .b).eoc) ∧ t.errc = 0#2 ∧
    t.res = s.res ∧ t.config = s.config ∧ t.cmds = s.cmds ∧
    ∀ x, 0 ≤ (t.chan x).level.toInt ∧ (t.chan x).level.toInt ≤ 32768 ∧
      (t.chan x).vout = word (vconv s.config (t.chan x).level.toInt)

/-- R307, item 4, with R170, R174, R175 and R176: a channel makes at most one stage transition in an UPDATE,
always to Attack if triggered, and otherwise only from Attack to Decay or from Decay to Idle; end-of-cycle
marks exactly the last of these. -/
def Obligations.AtMostOneStageTransitionPerUpdate : Prop :=
  ∀ u s x t, u.wellFormed = true → exec (.update u) s = .next t →
    (Fires u s x → (t.chan x).stage = .attack) ∧
    (¬Fires u s x →
      ((s.chan x).stage = .idle → (t.chan x).stage = .idle) ∧
      ((s.chan x).stage = .attack → (t.chan x).stage = .attack ∨ (t.chan x).stage = .decay) ∧
      ((s.chan x).stage = .decay → (t.chan x).stage = .decay ∨ (t.chan x).stage = .idle)) ∧
    ((t.chan x).eoc = true ↔ ¬Fires u s x ∧ (s.chan x).stage = .decay ∧ (t.chan x).stage = .idle)

/-- R203: a gate or a button held over two UPDATEs triggers nothing in the second, and a pulse edge reported
to both triggers both channels in both. -/
def Obligations.HeldSourcesTriggerOnce : Prop :=
  ∀ u u' s t t' x, exec (.update u) s = .next t → exec (.update u') t = .next t' →
    ((s.config.gateTh < u'.gate x → s.config.gateTh < u.gate x) → (u'.btn = true → u.btn = true) →
      u'.pedge = false → (t'.chan x).trig = false) ∧
    (u.pedge = true → u'.pedge = true → (t.chan x).trig = true ∧ (t'.chan x).trig = true)

/-- R28: what becomes of a channel in an UPDATE depends on its own registers and its own gate, the button
latch, the parameters and the shared operands; the other channel's registers and gate can differ freely. -/
def Obligations.ChannelsNeverReadEachOther : Prop :=
  ∀ u u' s s' t t' x, s.chan x = s'.chan x → s.bwp = s'.bwp → s.config = s'.config → u.gate x = u'.gate x →
    u.now = u'.now → u.potAtt = u'.potAtt → u.potDec = u'.potDec → u.potShape = u'.potShape → u.btn = u'.btn →
    u.pedge = u'.pedge → exec (.update u) s = .next t → exec (.update u') s' = .next t' →
    t.chan x = t'.chan x

/-- R220, R173, R27 and R32: an UPDATE reads no output, status, result or error register, and neither a level
nor the pulse flag as the UPDATE before it left them, since it writes `PFLAG` (step 1) and each `LEVEL_X`
(step 4) before it reads them: states that agree on stages, start times, durations and latches go to states
that agree on everything but `RES`, which each keeps. The premise on the parameters and the waiting commands
is about the model's own fields (notes/assumptions/1.md, 2.md, DESIGN CHOICE). -/
def Obligations.UpdateReadsNoOutputRegister : Prop :=
  ∀ u s s' t t',
    (∀ x, (s.chan x).stage = (s'.chan x).stage ∧ (s.chan x).start = (s'.chan x).start ∧
      (s.chan x).dur = (s'.chan x).dur ∧ (s.chan x).gwh = (s'.chan x).gwh) →
    s.bwp = s'.bwp → s.config = s'.config → s.cmds = s'.cmds →
    exec (.update u) s = .next t → exec (.update u) s' = .next t' → t = { t' with res := s.res }

/-- R132, R177, R223: while a channel is not triggered and makes no transition, the attack and decay knobs
change nothing of it; when it is triggered, the decay knob changes nothing of it. -/
def Obligations.TimeKnobsWaitForATransition : Prop :=
  ∀ u att dec s t t' x, u.wellFormed = true → isU8 att = true → isU8 dec = true →
    exec (.update u) s = .next t → exec (.update { u with potAtt := att, potDec := dec }) s = .next t' →
    (¬Fires u s x → (s.chan x).stage = .idle ∨ elapsed u.now (s.chan x).start < (s.chan x).dur.toNat →
      t.chan x = t'.chan x) ∧
    (Fires u s x → att = u.potAtt → t.chan x = t'.chan x)

/-- R175, R176: over two UPDATEs with one shape knob and no trigger, at elapsed times that do not decrease
and stay below the duration, the level does not fall in Attack and does not rise in Decay. -/
def Obligations.LevelsRiseInAttackAndFallInDecay : Prop :=
  ∀ u u' s t t' x, u.wellFormed = true → u'.wellFormed = true → u.potShape = u'.potShape →
    exec (.update u) s = .next t → exec (.update u') t = .next t' → ¬Fires u s x → ¬Fires u' t x →
    elapsed u.now (s.chan x).start ≤ elapsed u'.now (s.chan x).start →
    elapsed u'.now (s.chan x).start < (s.chan x).dur.toNat →
    ((s.chan x).stage = .attack → (t.chan x).level.toInt ≤ (t'.chan x).level.toInt) ∧
    ((s.chan x).stage = .decay → (t'.chan x).level.toInt ≤ (t.chan x).level.toInt)

/-- The source's full-cycle property with the precondition of spec/90_conflicts.md C8: a triggered channel
polled exactly one attack duration later is in Decay at `ONE`; polled exactly one decay duration after that it
is Idle at level 0 with end-of-cycle; polled once more it is Idle without it. -/
def Obligations.FullCycleTakesAttackPlusDecay : Prop :=
  ∀ u0 u1 u2 u3 s t0 t1 t2 t3 x,
    u0.wellFormed = true → u1.wellFormed = true → u2.wellFormed = true → u3.wellFormed = true →
    exec (.update u0) s = .next t0 → exec (.update u1) t0 = .next t1 → exec (.update u2) t1 = .next t2 →
    exec (.update u3) t2 = .next t3 →
    Fires u0 s x → ¬Fires u1 t0 x → ¬Fires u2 t1 x → ¬Fires u3 t2 x →
    u1.now = (u0.now + timeMap s.config u0.potAtt) % 4294967296 →
    u2.now = (u1.now + timeMap s.config u1.potDec) % 4294967296 →
    ((t0.chan x).stage = .attack ∧ (t0.chan x).level = 0#32 ∧ (t0.chan x).eoc = false) ∧
    ((t1.chan x).stage = .decay ∧ (t1.chan x).level = 32768#32 ∧ (t1.chan x).eoc = false) ∧
    ((t2.chan x).stage = .idle ∧ (t2.chan x).level = 0#32 ∧ (t2.chan x).eoc = true ∧ t2.pulseOut = true) ∧
    ((t3.chan x).stage = .idle ∧ (t3.chan x).level = 0#32 ∧ (t3.chan x).eoc = false)

/-- R174, the source's "Idempotent idle": from any state with channel X Idle at level 0, any number of
waiting UPDATEs in which no source of X is high leaves it Idle at level 0, and a run over them completes. The
queue the run empties is the model's own (notes/assumptions/2.md, DESIGN CHOICE). -/
def Obligations.QuietPollsKeepAnIdleChannelIdle : Prop :=
  ∀ (us : List Upd) (s : State) (x : ChannelId),
    (∀ u ∈ us, u.wellFormed = true ∧ Quiet u s.config x) → s.cmds = us.map (fun u => encode (.update u)) →
    (s.chan x).stage = .idle → (s.chan x).level = 0#32 →
    ∃ t : State, Sys2Proof.core.run us.length s = .next t ∧ t.cmds = [] ∧ (t.chan x).stage = .idle ∧
      (t.chan x).level = 0#32 ∧ (us ≠ [] → (t.chan x).eoc = false ∧ (t.chan x).trig = false)

/-- R360: the predicate "if channel X is active, its stage began at true time `began`, `START_X` holds that
time modulo `2^32`, and the stage was not over at the last UPDATE's true time `last`" is kept by every step.
An UPDATE whose `NOW` is a true time `now` not before `last`, and less than `2^32 - T_CEIL` after it while X
is active, sees as elapsed time exactly the true time since the stage began; where it begins a stage, also
from Idle, the predicate holds with `now` as both times; where it does not, `START_X` is kept and the
predicate holds with `began` and `now`. Every other step, waiting included, keeps it with both times. -/
def Obligations.HostClockGivesTrueElapsedTime : Prop :=
  ∀ (s t : State) (x : ChannelId) (began last : Nat),
    s.Inv → (s.chan x).OnClock began last → step s = .next t →
    t.Inv ∧
    (∀ c rest u now, s.cmds = c :: rest → decode c = .ok (.update u) → u.now = now % 4294967296 → last ≤ now →
      ((s.chan x).stage ≠ .idle → now - last < 4294967296 - s.config.tCeil) →
      ((s.chan x).stage ≠ .idle → elapsed u.now (s.chan x).start = now - began) ∧
      (Begins u s x → (t.chan x).stage ≠ .idle ∧ (t.chan x).Tracks now now) ∧
      (¬Begins u s x → (t.chan x).start = (s.chan x).start ∧ (t.chan x).OnClock began now)) ∧
    ((∀ c rest u, s.cmds = c :: rest → decode c ≠ .ok (.update u)) → (t.chan x).OnClock began last)

/-- R177: an UPDATE whose `NOW` lies before the stage's start time, by no more than `2^32 - T_CEIL`, sees a
large elapsed time and ends the stage at once. -/
def Obligations.BackwardClockEndsTheStage : Prop :=
  ∀ u s x t, s.Inv → u.wellFormed = true → ¬Fires u s x → u.now < (s.chan x).start.toNat →
    (s.chan x).start.toNat - u.now ≤ 4294967296 - s.config.tCeil → exec (.update u) s = .next t →
    elapsed u.now (s.chan x).start = 4294967296 - ((s.chan x).start.toNat - u.now) ∧
    ((s.chan x).stage = .attack → (t.chan x).stage = .decay ∧ (t.chan x).level = 32768#32) ∧
    ((s.chan x).stage = .decay → (t.chan x).stage = .idle ∧ (t.chan x).level = 0#32 ∧ (t.chan x).eoc = true)

/-! ### Errors -/

/-- R72, R73, R302, R304: a command whose reserved nibble is not 0, or whose selector is 0xA to 0xF, writes
`ERRC <- 1` and nothing else, whatever its operand frame. -/
def Obligations.IllegalCommandsOnlyWriteTheErrorCode : Prop :=
  ∀ (cmd : Byte) (f : Frame) (s : State), cmd.extractLsb' 4 4 ≠ 0#4 ∨ 10 ≤ (cmd.extractLsb' 0 4).toNat →
    runCommand ⟨cmd, f⟩ s = .next { s with errc := 1#2 }

/-- R301: `ERRC` is not sticky and no command reads it: a command's result does not depend on the code the
command before it left. -/
def Obligations.ErrorCodeIsNeverRead : Prop :=
  ∀ c s e, runCommand c { s with errc := e } = runCommand c s

/-- R35, R33, R303: a command other than UPDATE and RESET changes no register but `RES` and `ERRC`; it ends
with `ERRC` 0 or 2; NOP, and a command that ends with `ERRC` 2, keep `RES`; and `ERRC` 2 comes only from
TMAP, U8Q15, QMUL, LERP, CLAMP and SHAPE. -/
def Obligations.OnlyUpdateAndResetTouchTheEnvelope : Prop :=
  ∀ i s t, exec i s = .next t → i ≠ .reset → (∀ u, i ≠ .update u) →
    t = { s with res := t.res, errc := t.errc } ∧ (t.errc = 0#2 ∨ t.errc = 2#2) ∧
    (i = .nop ∨ t.errc = 2#2 → t.res = s.res) ∧
    (t.errc = 2#2 → i ≠ .nop ∧ ∀ level, i ≠ .vconv level)

/-- R301, R303 (spec/93_implementation_defined.md I9): a step over a legal command keeps a safe state safe when
the command's operands lie in its domain, and reports `E_DOMAIN` when they do not. -/
def Obligations.CommandsInTheirDomainKeepTheStateSafe : Prop :=
  ∀ (s : State) (c : Command) (rest : List Command) (i : Instr), s.Safe → s.cmds = c :: rest → decode c = .ok i →
    ∃ t, step s = .next t ∧ (inDomain i = true → t.Safe) ∧ (inDomain i = false → t.errc = 2#2)

/-! ### The step -/

/-- R14: the block's behaviour is total and deterministic: every command on every state has exactly one next
state. -/
def Obligations.EveryCommandHasOneNextState : Prop :=
  ∀ (c : Command) (s : State), ∃ t, runCommand c s = .next t ∧ ∀ t', runCommand c s = .next t' → t' = t

/-- A step takes the oldest waiting command, decodes it and executes it on the state without it; a command
that does not decode is answered as R301 says. The queue of waiting commands is the model's own
(notes/assumptions/2.md). -/
def Obligations.StepRunsTheDecodedCommand : Prop :=
  ∀ (s : State) (c : Command) (rest : List Command), s.cmds = c :: rest →
    (∀ i, decode c = .ok i → step s = exec i { s with cmds := rest }) ∧
    (∀ e, decode c = .error e → step s = .next { s with cmds := rest, errc := 1#2 })

/-- The model's choice (notes/assumptions/2.md): a step with no command waiting leaves every register as it
is, and a word placed by `withFetchWord` is the command the next step takes. -/
def Obligations.StepWaitsForACommand : Prop :=
  (∀ s : State, s.cmds = [] → step s = .next s) ∧
  ∀ (s : State) (w : Nat), step (s.withFetchWord 8 w) = runCommand ⟨BitVec.ofNat 8 w, 0#128⟩ s

/-- R29 on R40: the invariants hold at reset, and RESET restores them from any state. -/
def Obligations.ResetEstablishesTheInvariants : Prop :=
  State.reset.Inv ∧ State.reset.StatusInv ∧
  ∀ s, ∃ t, exec .reset s = .next t ∧ t.Inv ∧ t.StatusInv

/-- R29: the state invariants hold after every command: from every state that meets them, every step answers a
state that meets them, for every parameter set. -/
def Obligations.EveryStepKeepsTheInvariants : Prop :=
  ∀ s : State, s.Inv → ∃ t, step s = .next t ∧ t.Inv

/-- Derived from R170, R173, R220 and R301: every step keeps the four facts of `State.StatusInv`: `TRIG_X`
implies Attack at level 0, `EOC_X` implies Idle, `PULSE_OUT` is the OR of the end-of-cycle flags, and `ERRC`
is not 3. -/
def Obligations.EveryStepKeepsTheStatusConsistent : Prop :=
  ∀ s t : State, s.StatusInv → step s = .next t → t.StatusInv

/-- R351, item 1: no step changes the parameters. That each step takes exactly the oldest waiting command, in
the order R58 gives, and that a step with none waiting takes none, is the model's choice of a queue
(notes/assumptions/2.md, DESIGN CHOICE); that a RESET also keeps the commands after it is 9.md (DEDUCED). -/
def Obligations.StepsKeepTheParametersAndTakeOneCommand : Prop :=
  ∀ s t : State, step s = .next t → t.config = s.config ∧ t.cmds = s.cmds.tail

/-! ### Encoding -/

/-- R71: the opcode map. A command decodes exactly when its reserved nibble is 0 and its selector is 0 to 9,
and then to the operation of its row, with the operands of the frame R71 gives it. -/
def Obligations.OpcodeMapDecidesTheOperation : Prop :=
  (∀ c : Command, (∃ i, decode c = .ok i) ↔ c.cmd.extractLsb' 4 4 = 0#4 ∧ (c.cmd.extractLsb' 0 4).toNat ≤ 9) ∧
  ∀ (c : Command) (i : Instr), decode c = .ok i →
    (c.cmd = 0x00#8 ↔ i = .nop) ∧ (c.cmd = 0x01#8 ↔ i = .reset) ∧ (c.cmd = 0x02#8 ↔ ∃ u, i = .update u) ∧
    (c.cmd = 0x03#8 ↔ ∃ k, i = .tmap k) ∧ (c.cmd = 0x04#8 ↔ ∃ v, i = .u8q15 v) ∧
    (c.cmd = 0x05#8 ↔ ∃ a b, i = .qmul a b) ∧ (c.cmd = 0x06#8 ↔ ∃ a b t, i = .lerp a b t) ∧
    (c.cmd = 0x07#8 ↔ ∃ v lo hi, i = .clamp v lo hi) ∧ (c.cmd = 0x08#8 ↔ ∃ p b d, i = .shape p b d) ∧
    (c.cmd = 0x09#8 ↔ ∃ l, i = .vconv l)

/-- R74, R75: the fields of the `UPD` frame, unsigned but for the two gate codes, which are two's
complement; `IN[63:58]` changes nothing. -/
def Obligations.UpdFrameFieldsDecode : Prop :=
  (∀ f : Frame, decode ⟨0x02#8, f⟩ =
    .ok (.update
      { now := (f.extractLsb' 0 32).toNat, potAtt := (f.extractLsb' 32 8).toNat,
        potDec := (f.extractLsb' 40 8).toNat, potShape := (f.extractLsb' 48 8).toNat, btn := f.getLsbD 56,
        pedge := f.getLsbD 57, gateA := (f.extractLsb' 64 32).toInt, gateB := (f.extractLsb' 96 32).toInt })) ∧
  ∀ f g : Frame, f.extractLsb' 0 58 = g.extractLsb' 0 58 → f.extractLsb' 64 64 = g.extractLsb' 64 64 →
    decode ⟨0x02#8, f⟩ = decode ⟨0x02#8, g⟩

/-- R76, R77 (spec/93_implementation_defined.md I13): an evaluation command ignores `IN[127:96]`, and NOP and
RESET ignore all of `IN`. -/
def Obligations.IgnoredFrameBitsChangeNothing : Prop :=
  (∀ (cmd : Byte) (f g : Frame), 3 ≤ cmd.toNat → f.extractLsb' 0 96 = g.extractLsb' 0 96 →
    decode ⟨cmd, f⟩ = decode ⟨cmd, g⟩) ∧
  ∀ (cmd : Byte) (f g : Frame), cmd.toNat ≤ 1 → decode ⟨cmd, f⟩ = decode ⟨cmd, g⟩

/-- Every well-formed instruction, with every value its fields admit, is what its encoding decodes to. -/
def Obligations.DecodeOfEncodeIsTheInstruction : Prop :=
  ∀ i : Instr, i.wellFormed = true → decode (encode i) = .ok i

/-- What a command decodes to is well formed, and encoding it again gives a command with the same byte that
decodes alike. -/
def Obligations.DecodedInstructionsAreWellFormed : Prop :=
  ∀ (c : Command) (i : Instr), decode c = .ok i →
    i.wellFormed = true ∧ (encode i).cmd = c.cmd ∧ decode (encode i) = decode c

/-- A few commands of spec/95_test_vectors.md, written out bit by bit, decode to the instruction they stand
for, one of each family. -/
def Obligations.WrittenOutCommandsDecode : Prop :=
  decode ⟨0x01#8, 0#128⟩ = .ok .reset ∧
  decode ⟨0x02#8, 0x000000000000000002FF140A00002F44#128⟩ =
    .ok (.update { now := 12100, potAtt := 10, potDec := 20, potShape := 255, pedge := true }) ∧
  decode ⟨0x03#8, 0x00000000000000000000000000000040#128⟩ = .ok (.tmap 64) ∧
  decode ⟨0x05#8, 0x000000000000000000002AABFFFFFFFD#128⟩ = .ok (.qmul (-3) 10923) ∧
  decode ⟨0x07#8, 0x000000000000000AFFFFFFF680000000#128⟩ = .ok (.clamp (-2147483648) (-10) 10) ∧
  decode ⟨0x08#8, 0x00000000000000010000202000002710#128⟩ = .ok (.shape 10000 8224 1) ∧
  decode ⟨0x09#8, 0x00000000000000000000000000009C40#128⟩ = .ok (.vconv 40000) ∧
  decode ⟨0x0A#8, 0#128⟩ = .error .reservedOp ∧ decode ⟨0x12#8, 0#128⟩ = .error .reservedBits

/-- R52: a frame carried in bytes has bits `[8k+7:8k]` in byte `k`, and reading the bytes back gives the
command. That `CMD` comes before the frame is the model's choice (notes/assumptions/3.md). -/
def Obligations.CommandBytesReadBack : Prop :=
  (∀ (c : Command) (rest : List Byte), commandOfBytes (commandBytes c ++ rest) = some (c, rest)) ∧
  ∀ (f : Frame) (k : Nat), k < 16 → (frameBytes f)[k]? = some (f.extractLsb' (8 * k) 8)

/-- R80: the output frame shows the output and state registers, `OUTF[95:73]` reads 0, and under the
invariants a level field read unsigned is the level. -/
def Obligations.OutputFrameShowsTheRegisters : Prop :=
  ∀ s : State,
    (outFrame s).extractLsb' 0 32 = s.chA.vout ∧ (outFrame s).extractLsb' 32 32 = s.chB.vout ∧
    (outFrame s).getLsbD 64 = s.pulseOut ∧ (outFrame s).getLsbD 65 = s.chA.eoc ∧
    (outFrame s).getLsbD 66 = s.chB.eoc ∧ (outFrame s).getLsbD 67 = s.chA.trig ∧
    (outFrame s).getLsbD 68 = s.chB.trig ∧ (outFrame s).extractLsb' 69 2 = s.chA.stage.code ∧
    (outFrame s).extractLsb' 71 2 = s.chB.stage.code ∧ (outFrame s).extractLsb' 73 23 = 0#23 ∧
    (outFrame s).extractLsb' 96 16 = s.chA.level.extractLsb' 0 16 ∧
    (outFrame s).extractLsb' 112 16 = s.chB.level.extractLsb' 0 16 ∧
    (s.Inv → (((outFrame s).extractLsb' 96 16).toNat : Int) = s.chA.level.toInt ∧
      (((outFrame s).extractLsb' 112 16).toNat : Int) = s.chB.level.toInt)

/-- R82: a line that assembles to an instruction assembles to a well-formed one, so its command decodes to it. -/
def Obligations.AssembledCommandsAreWellFormed : Prop :=
  ∀ (line : List Char) (i : Instr), assembleLine line = .ok (some i) →
    i.wellFormed = true ∧ decode (encode i) = .ok i

/-- R83: POLL is an UPDATE with every field but `now` 0, and TRIGALL one with `pedge=1` besides. -/
def Obligations.PseudoInstructionsAreUpdates : Prop :=
  ∀ t : Nat, t < 4294967296 →
    Instr.poll t = .update ⟨t, 0, 0, 0, false, false, 0, 0⟩ ∧
    Instr.trigall t = .update ⟨t, 0, 0, 0, false, true, 0, 0⟩ ∧
    encode (.poll t) = ⟨0x02#8, BitVec.ofNat 128 t⟩ ∧
    encode (.trigall t) = ⟨0x02#8, BitVec.ofNat 128 (t + 2 ^ 57)⟩

/-! ### The quiet channel, step by step -/

/-- R174, the source's "Idempotent idle", as an invariant: a state with channel X Idle at level 0 in which
every waiting UPDATE is quiet for X is kept by every step, whatever other commands wait among them; a step
over an UPDATE also leaves neither end-of-cycle nor trigger of X and keeps its start time and duration. The
queue is the model's own (notes/assumptions/2.md, DESIGN CHOICE). -/
def Obligations.EveryStepKeepsAQuietChannelIdle : Prop :=
  ∀ (s t : State) (x : ChannelId), s.QuietFor x → step s = .next t →
    t.QuietFor x ∧
    ∀ c rest u, s.cmds = c :: rest → decode c = .ok (.update u) →
      (t.chan x).eoc = false ∧ (t.chan x).trig = false ∧ (t.chan x).start = (s.chan x).start ∧
      (t.chan x).dur = (s.chan x).dur
end

