-- ==== Sys2Proof/Laws/Arith.lean ====
section
/-! SUPPORT. One lemma per arithmetic function that says what it can answer: its range, and its value where
a caller needs one. -/

namespace Sys2Proof.Machine

/-- The literals of the definitions are the constants of R9. -/
theorem ONE_eq : ONE = 2 ^ FRAC := by decide

theorem CLOCK_MOD_eq : CLOCK_MOD = 2 ^ 32 := by decide

theorem q15Mul_eq (a b : Int) : q15Mul a b = a * b / ONE := rfl

theorem u8ToQ15_eq (v : Nat) : (u8ToQ15 v : Int) = v * ONE / (KNOB_MAX : Int) := by simp [u8ToQ15]

theorem wrap32_eq (v : Int) : (wrap32 v : Int) = v % (CLOCK_MOD : Int) := by unfold wrap32; simp; omega

theorem word_toInt {v : Int} (lo : -2147483648 ≤ v) (hi : v < 2147483648) : (word v).toInt = v := by
  rw [word, BitVec.toInt_ofInt, Int.bmod_def]
  norm_num
  split <;> omega

theorem word_zero : word 0 = 0#32 := by decide

@[simp] theorem wrap32_lt (v : Int) : wrap32 v < 4294967296 := by unfold wrap32; omega

theorem elapsed_lt (now : Nat) (start : Word) : elapsed now start < 4294967296 := wrap32_lt _

/-- At the instant a stage begins, no time has passed. -/
theorem elapsed_self (now : Nat) : elapsed now (BitVec.ofNat 32 now) = 0 := by
  simp only [elapsed, wrap32, BitVec.toNat_ofNat]
  omega

theorem clamp_mem {v lo hi : Int} (h : lo ≤ hi) : lo ≤ clamp v lo hi ∧ clamp v lo hi ≤ hi := by
  unfold clamp
  split <;> (try split) <;> omega

theorem clamp_of_mem {v lo hi : Int} (h : lo ≤ v) (h' : v ≤ hi) : clamp v lo hi = v := by
  unfold clamp
  split <;> (try split) <;> omega

/-- A number times a factor in `[0, ONE]` lies between the number and 0. -/
theorem q15Mul_of_nonneg {d t : Int} (hd : 0 ≤ d) (ht : 0 ≤ t) (ht' : t ≤ 32768) :
    0 ≤ q15Mul d t ∧ q15Mul d t ≤ d := by
  have low : 0 ≤ d * t := mul_nonneg hd ht
  have high : d * t ≤ d * 32768 := mul_le_mul_of_nonneg_left ht' hd
  unfold q15Mul
  omega

theorem q15Mul_of_nonpos {d t : Int} (hd : d ≤ 0) (ht : 0 ≤ t) (ht' : t ≤ 32768) :
    d ≤ q15Mul d t ∧ q15Mul d t ≤ 0 := by
  have low : d * 32768 ≤ d * t := mul_le_mul_of_nonpos_left ht' hd
  have high : d * t ≤ 0 := mul_nonpos_of_nonpos_of_nonneg hd ht
  unfold q15Mul
  omega

theorem lerp_mem_of_le {a b t : Int} (h : a ≤ b) (ht : 0 ≤ t) (ht' : t ≤ 32768) :
    a ≤ lerp a b t ∧ lerp a b t ≤ b := by
  have := q15Mul_of_nonneg (d := b - a) (by omega) ht ht'
  unfold lerp
  omega

theorem lerp_mem_of_ge {a b t : Int} (h : b ≤ a) (ht : 0 ≤ t) (ht' : t ≤ 32768) :
    b ≤ lerp a b t ∧ lerp a b t ≤ a := by
  have := q15Mul_of_nonpos (d := b - a) (by omega) ht ht'
  unfold lerp
  omega

/-- The quadratic curve lies at or below the line in Attack. -/
theorem expPos_attack {pos : Int} (h : 0 ≤ pos) (h' : pos ≤ 32768) :
    0 ≤ expPos pos true ∧ expPos pos true ≤ pos := by
  simpa [expPos] using q15Mul_of_nonneg h h h'

/-- The quadratic curve lies at or above the line in Decay. -/
theorem expPos_decay {pos : Int} (h : 0 ≤ pos) (h' : pos ≤ 32768) :
    pos ≤ expPos pos false ∧ expPos pos false ≤ 32768 := by
  have := q15Mul_of_nonneg (d := 32768 - pos) (t := 32768 - pos) (by omega) (by omega) (by omega)
  simp only [expPos]
  simp
  omega

/-- The shape curve stays in `[0, ONE]`. -/
theorem shape_mem {pos blend : Int} (dir : Bool) (h : 0 ≤ pos) (h' : pos ≤ 32768) (hb : 0 ≤ blend)
    (hb' : blend ≤ 32768) : 0 ≤ shape pos blend dir ∧ shape pos blend dir ≤ 32768 := by
  cases dir with
  | true =>
    have e := expPos_attack h h'
    have := lerp_mem_of_ge e.2 hb hb'
    unfold shape
    omega
  | false =>
    have e := expPos_decay h h'
    have := lerp_mem_of_le e.1 hb hb'
    unfold shape
    omega

theorem shape_zero_attack (blend : Int) : shape 0 blend true = 0 := by
  simp [shape, expPos, q15Mul, lerp]

theorem shape_one_decay (blend : Int) : shape 32768 blend false = 32768 := by
  simp [shape, expPos, q15Mul, lerp]

theorem u8ToQ15_le {v : Nat} (h : v ≤ 255) : u8ToQ15 v ≤ 32768 := by unfold u8ToQ15; omega

theorem timeMap_mem (c : Config) {k : Nat} (h : k ≤ 255) :
    c.tFloor ≤ timeMap c k ∧ timeMap c k ≤ c.tCeil := by
  have order := c.tFloor_le_tCeil
  have cube : k * k * k ≤ 16581375 := by
    calc k * k * k ≤ 255 * 255 * 255 := by gcongr
      _ = 16581375 := by norm_num
  have step : k * k * k * (c.tCeil - c.tFloor) / 16581375 ≤ c.tCeil - c.tFloor := by
    apply Nat.div_le_of_le_mul
    exact Nat.mul_le_mul_right _ cube
  unfold timeMap
  split <;> omega

/-- The linear position is below `ONE` while the stage runs. -/
theorem lin_lt {e d : Nat} (h : e < d) : lin e d < 32768 := by
  unfold lin
  rw [Nat.div_lt_iff_lt_mul (by omega)]
  rw [Nat.max_eq_left (by omega)]
  omega

theorem lin_zero (d : Nat) : lin 0 d = 0 := by simp [lin]

theorem vconv_mem (c : Config) (v : Int) : (c.vMin : Int) ≤ vconv c v ∧ vconv c v ≤ c.vMax :=
  clamp_mem (by exact_mod_cast c.vMin_le_vMax)

end Sys2Proof.Machine
end

