-- ==== Sys2Proof/Laws/Decode.lean ====
section
/-! SUPPORT. What the decoder answers, said once: the opcode map is inverse to its selectors, and a command
decodes in one of three ways. -/

namespace Sys2Proof

@[simp] theorem opOfCode_code (op : Op) : opOfCode op.code = some op := by cases op <;> rfl

theorem code_of_opOfCode {n : BitVec 4} {op : Op} (h : opOfCode n = some op) : n = op.code := by
  revert h
  revert n
  cases op <;> decide

@[simp] theorem rsvField_append (n : BitVec 4) : rsvField (0x0#4 ++ n) = 0#4 := by
  revert n
  decide

@[simp] theorem opField_append (n : BitVec 4) : opField (0x0#4 ++ n) = n := by
  revert n
  decide

@[simp] theorem decodeOperands_op (f : Frame) (op : Op) : (decodeOperands f op).op = op := by cases op <;> rfl

/-- A command whose byte is a selector with a zero reserved nibble decodes to that operation. -/
theorem decode_of_op (op : Op) (f : Frame) : decode ⟨0x0#4 ++ op.code, f⟩ = .ok (decodeOperands f op) := by
  simp [decode]

theorem byte_eq_append {cmd : Byte} (h : rsvField cmd = 0#4) : cmd = 0x0#4 ++ opField cmd := by
  revert cmd
  decide

/-- What a successful decoding says of the command: its byte is the operation's, its operands the frame's. -/
theorem decode_ok {c : Command} {i : Instr} (h : decode c = .ok i) :
    c.cmd = 0x0#4 ++ i.op.code ∧ i = decodeOperands c.frame i.op := by
  unfold decode at h
  split at h
  · cases h
  · next rsv =>
    split at h
    · next op found =>
      cases h
      have := byte_eq_append (not_not.mp rsv)
      rw [code_of_opOfCode found] at this
      simpa using this
    · cases h

theorem decode_error_cases {c : Command} {e : DecodeError} (h : decode c = .error e) :
    (e = .reservedBits ∧ rsvField c.cmd ≠ 0#4) ∨
      (e = .reservedOp ∧ rsvField c.cmd = 0#4 ∧ opOfCode (opField c.cmd) = none) := by
  unfold decode at h
  split at h
  · next rsv => cases h; exact .inl ⟨rfl, rsv⟩
  · next rsv =>
    split at h
    · cases h
    · next found => cases h; exact .inr ⟨rfl, not_not.mp rsv, found⟩

@[simp] theorem encode_cmd (i : Instr) : (encode i).cmd = 0x0#4 ++ i.op.code := rfl

@[simp] theorem encode_frame (i : Instr) : (encode i).frame = encodeFrame i := rfl

end Sys2Proof
end

