-- ==== Sys2Proof/Laws/State.lean ====
section
/-! SUPPORT. One lemma per field per update of State, each true by unfolding the update once, so that no
later proof unfolds a record update. -/

namespace Sys2Proof.Machine

variable (s : State) (x y : ChannelId) (ch ch' : Channel)

section
variable (v : Bool)
@[simp] theorem State.setBwp_chA : (s.setBwp v).chA = s.chA := rfl
@[simp] theorem State.setBwp_chB : (s.setBwp v).chB = s.chB := rfl
@[simp] theorem State.setBwp_bwp : (s.setBwp v).bwp = v := rfl
@[simp] theorem State.setBwp_pflag : (s.setBwp v).pflag = s.pflag := rfl
@[simp] theorem State.setBwp_pulseOut : (s.setBwp v).pulseOut = s.pulseOut := rfl
@[simp] theorem State.setBwp_res : (s.setBwp v).res = s.res := rfl
@[simp] theorem State.setBwp_errc : (s.setBwp v).errc = s.errc := rfl
@[simp] theorem State.setBwp_config : (s.setBwp v).config = s.config := rfl
@[simp] theorem State.setBwp_cmds : (s.setBwp v).cmds = s.cmds := rfl
@[simp] theorem State.setBwp_chan : (s.setBwp v).chan x = s.chan x := by cases x <;> rfl
end

section
variable (v : Bool)
@[simp] theorem State.setPflag_chA : (s.setPflag v).chA = s.chA := rfl
@[simp] theorem State.setPflag_chB : (s.setPflag v).chB = s.chB := rfl
@[simp] theorem State.setPflag_bwp : (s.setPflag v).bwp = s.bwp := rfl
@[simp] theorem State.setPflag_pflag : (s.setPflag v).pflag = v := rfl
@[simp] theorem State.setPflag_pulseOut : (s.setPflag v).pulseOut = s.pulseOut := rfl
@[simp] theorem State.setPflag_res : (s.setPflag v).res = s.res := rfl
@[simp] theorem State.setPflag_errc : (s.setPflag v).errc = s.errc := rfl
@[simp] theorem State.setPflag_config : (s.setPflag v).config = s.config := rfl
@[simp] theorem State.setPflag_cmds : (s.setPflag v).cmds = s.cmds := rfl
@[simp] theorem State.setPflag_chan : (s.setPflag v).chan x = s.chan x := by cases x <;> rfl
end

section
variable (v : Bool)
@[simp] theorem State.setPulseOut_chA : (s.setPulseOut v).chA = s.chA := rfl
@[simp] theorem State.setPulseOut_chB : (s.setPulseOut v).chB = s.chB := rfl
@[simp] theorem State.setPulseOut_bwp : (s.setPulseOut v).bwp = s.bwp := rfl
@[simp] theorem State.setPulseOut_pflag : (s.setPulseOut v).pflag = s.pflag := rfl
@[simp] theorem State.setPulseOut_pulseOut : (s.setPulseOut v).pulseOut = v := rfl
@[simp] theorem State.setPulseOut_res : (s.setPulseOut v).res = s.res := rfl
@[simp] theorem State.setPulseOut_errc : (s.setPulseOut v).errc = s.errc := rfl
@[simp] theorem State.setPulseOut_config : (s.setPulseOut v).config = s.config := rfl
@[simp] theorem State.setPulseOut_cmds : (s.setPulseOut v).cmds = s.cmds := rfl
@[simp] theorem State.setPulseOut_chan : (s.setPulseOut v).chan x = s.chan x := by cases x <;> rfl
end

section
variable (v : Word)
@[simp] theorem State.setRes_chA : (s.setRes v).chA = s.chA := rfl
@[simp] theorem State.setRes_chB : (s.setRes v).chB = s.chB := rfl
@[simp] theorem State.setRes_bwp : (s.setRes v).bwp = s.bwp := rfl
@[simp] theorem State.setRes_pflag : (s.setRes v).pflag = s.pflag := rfl
@[simp] theorem State.setRes_pulseOut : (s.setRes v).pulseOut = s.pulseOut := rfl
@[simp] theorem State.setRes_res : (s.setRes v).res = v := rfl
@[simp] theorem State.setRes_errc : (s.setRes v).errc = s.errc := rfl
@[simp] theorem State.setRes_config : (s.setRes v).config = s.config := rfl
@[simp] theorem State.setRes_cmds : (s.setRes v).cmds = s.cmds := rfl
@[simp] theorem State.setRes_chan : (s.setRes v).chan x = s.chan x := by cases x <;> rfl
end

section
variable (v : BitVec 2)
@[simp] theorem State.setErrc_chA : (s.setErrc v).chA = s.chA := rfl
@[simp] theorem State.setErrc_chB : (s.setErrc v).chB = s.chB := rfl
@[simp] theorem State.setErrc_bwp : (s.setErrc v).bwp = s.bwp := rfl
@[simp] theorem State.setErrc_pflag : (s.setErrc v).pflag = s.pflag := rfl
@[simp] theorem State.setErrc_pulseOut : (s.setErrc v).pulseOut = s.pulseOut := rfl
@[simp] theorem State.setErrc_res : (s.setErrc v).res = s.res := rfl
@[simp] theorem State.setErrc_errc : (s.setErrc v).errc = v := rfl
@[simp] theorem State.setErrc_config : (s.setErrc v).config = s.config := rfl
@[simp] theorem State.setErrc_cmds : (s.setErrc v).cmds = s.cmds := rfl
@[simp] theorem State.setErrc_chan : (s.setErrc v).chan x = s.chan x := by cases x <;> rfl
end

section
variable (v : List Command)
@[simp] theorem State.setCmds_chA : (s.setCmds v).chA = s.chA := rfl
@[simp] theorem State.setCmds_chB : (s.setCmds v).chB = s.chB := rfl
@[simp] theorem State.setCmds_bwp : (s.setCmds v).bwp = s.bwp := rfl
@[simp] theorem State.setCmds_pflag : (s.setCmds v).pflag = s.pflag := rfl
@[simp] theorem State.setCmds_pulseOut : (s.setCmds v).pulseOut = s.pulseOut := rfl
@[simp] theorem State.setCmds_res : (s.setCmds v).res = s.res := rfl
@[simp] theorem State.setCmds_errc : (s.setCmds v).errc = s.errc := rfl
@[simp] theorem State.setCmds_config : (s.setCmds v).config = s.config := rfl
@[simp] theorem State.setCmds_cmds : (s.setCmds v).cmds = v := rfl
@[simp] theorem State.setCmds_chan : (s.setCmds v).chan x = s.chan x := by cases x <;> rfl
end

@[simp] theorem State.setChan_bwp : (s.setChan x ch).bwp = s.bwp := by cases x <;> rfl
@[simp] theorem State.setChan_pflag : (s.setChan x ch).pflag = s.pflag := by cases x <;> rfl
@[simp] theorem State.setChan_pulseOut : (s.setChan x ch).pulseOut = s.pulseOut := by cases x <;> rfl
@[simp] theorem State.setChan_res : (s.setChan x ch).res = s.res := by cases x <;> rfl
@[simp] theorem State.setChan_errc : (s.setChan x ch).errc = s.errc := by cases x <;> rfl
@[simp] theorem State.setChan_config : (s.setChan x ch).config = s.config := by cases x <;> rfl
@[simp] theorem State.setChan_cmds : (s.setChan x ch).cmds = s.cmds := by cases x <;> rfl

@[simp] theorem State.setChan_chan_self : (s.setChan x ch).chan x = ch := by cases x <;> rfl

@[simp] theorem State.setChan_chan_of_ne (h : x ≠ y) : (s.setChan x ch).chan y = s.chan y := by
  cases x <;> cases y <;> first | rfl | exact absurd rfl h

@[simp] theorem State.setChan_a_chA : (s.setChan .a ch).chA = ch := rfl
@[simp] theorem State.setChan_a_chB : (s.setChan .a ch).chB = s.chB := rfl
@[simp] theorem State.setChan_b_chA : (s.setChan .b ch).chA = s.chA := rfl
@[simp] theorem State.setChan_b_chB : (s.setChan .b ch).chB = ch := rfl
@[simp] theorem State.chan_a : s.chan .a = s.chA := rfl
@[simp] theorem State.chan_b : s.chan .b = s.chB := rfl

/-- Two states are equal when every register, the parameters and the waiting commands are. -/
theorem State.eq_of_fields {s t : State} (chan : ∀ x, s.chan x = t.chan x) (bwp : s.bwp = t.bwp)
    (pflag : s.pflag = t.pflag) (pulseOut : s.pulseOut = t.pulseOut) (res : s.res = t.res)
    (errc : s.errc = t.errc) (config : s.config = t.config) (cmds : s.cmds = t.cmds) : s = t := by
  have ha := chan .a
  have hb := chan .b
  cases s
  cases t
  simp_all [State.chan]

@[simp] theorem State.atReset_chan (c : Config) (q : List Command) :
    (State.atReset c q).chan x = Channel.atReset c := by cases x <;> rfl

@[simp] theorem Stage.code_ne_three (g : Stage) : g.code ≠ 3#2 := by cases g <;> decide

theorem Stage.code_injective {g h : Stage} (e : g.code = h.code) : g = h := by
  cases g <;> cases h <;> first | rfl | exact absurd e (by decide)

end Sys2Proof.Machine
end

