-- ==== Sys2Proof/Laws/Ops.lean ====
section
/-! SUPPORT. One lemma per shared operation that says once everything it can do. -/

namespace Sys2Proof.Machine

@[simp] theorem raiseError_eq (code : BitVec 2) (s : State) :
    raiseError code s = .next { s with errc := code } := rfl

@[simp] theorem finishEval_eq (v : Int) (s : State) :
    finishEval v s = .next { s with res := word v, errc := 0#2 } := rfl

/-- An evaluation command answers in one of two ways. -/
theorem evaluate_cases (ok : Bool) (v : Int) (s : State) :
    (ok = true ∧ evaluate ok v s = .next { s with res := word v, errc := 0#2 }) ∨
      (ok = false ∧ evaluate ok v s = .next { s with errc := 2#2 }) := by
  cases ok
  · exact .inr ⟨rfl, rfl⟩
  · exact .inl ⟨rfl, rfl⟩

theorem evaluate_of_domain {ok : Bool} (h : ok = true) (v : Int) (s : State) :
    evaluate ok v s = .next { s with res := word v, errc := 0#2 } := by subst h; rfl

theorem evaluate_outside {ok : Bool} (h : ok = false) (v : Int) (s : State) :
    evaluate ok v s = .next { s with errc := 2#2 } := by subst h; rfl

@[simp] theorem rejectCommand_eq (e : DecodeError) (s : State) :
    rejectCommand e s = .next { s with errc := 1#2 } := rfl

theorem fetch_nil {s : State} (h : s.cmds = []) : fetch s = none := by simp [fetch, h]

theorem fetch_cons {s : State} {c : Command} {rest : List Command} (h : s.cmds = c :: rest) :
    fetch s = some (c, s.setCmds rest) := by simp [fetch, h]

@[simp] theorem issue_cmds (c : Command) (s : State) : (issue c s).cmds = s.cmds ++ [c] := rfl

@[simp] theorem issueNext_cmds (c : Command) (s : State) : (issueNext c s).cmds = c :: s.cmds := rfl

end Sys2Proof.Machine
end

