-- ==== Sys2Proof/Laws/PerInstr.lean ====
section
/-! SUPPORT. Statements made per instruction, one lemma per constructor of `Instr`. -/

namespace Sys2Proof.Laws.EncodesLegal

/-- The encoding of an instruction is a legal command: its reserved nibble is 0 and its selector assigned
(R72, R73). -/
def Statement (i : Instr) : Prop := (encode i).legal = true

theorem of_instr (i : Instr) : Statement i := by
  have all : ∀ op : Op, Command.legal ⟨0x0#4 ++ op.code, 0#128⟩ = true := by intro op; cases op <;> decide
  exact all i.op

theorem nop : Statement .nop := of_instr _
theorem reset : Statement .reset := of_instr _
theorem update (u : Upd) : Statement (.update u) := of_instr _
theorem tmap (k : Int) : Statement (.tmap k) := of_instr _
theorem u8q15 (v : Int) : Statement (.u8q15 v) := of_instr _
theorem qmul (a b : Int) : Statement (.qmul a b) := of_instr _
theorem lerp (a b t : Int) : Statement (.lerp a b t) := of_instr _
theorem clamp (v lo hi : Int) : Statement (.clamp v lo hi) := of_instr _
theorem shape (pos blend isAttack : Int) : Statement (.shape pos blend isAttack) := of_instr _
theorem vconv (level : Int) : Statement (.vconv level) := of_instr _

end Sys2Proof.Laws.EncodesLegal
end

