-- ==== Sys2Proof/Laws/Update.lean ====
section
/-! SUPPORT. What UPDATE does, said once: each register of the state after it, as a function of the state
before it. Later proofs cite these and never unfold `updateState`. -/

namespace Sys2Proof.Machine

/-- The trigger decision of channel X in an UPDATE. -/
def trigOf (u : Upd) (s : State) (x : ChannelId) : Bool :=
  trigDecision (gateEdge (gateHigh s.config (u.gate x)) (s.chan x).gwh) (btnEdge u.btn s.bwp) u.pedge

/-- Channel X after its latch is written and its trigger applied. -/
def triggered (u : Upd) (s : State) (x : ChannelId) : Channel :=
  trigIf (trigOf u s x) u.now (timeMap s.config u.potAtt) { s.chan x with gwh := gateHigh s.config (u.gate x) }

/-- ADV on that channel. -/
def advanced (u : Upd) (s : State) (x : ChannelId) : Channel × Bool :=
  adv u.now (timeMap s.config u.potDec) (u8ToQ15 u.potShape) (triggered u s x)

/-- Channel X after an UPDATE: its own registers, its own gate and the shared operands decide it. -/
theorem updateState_chan (u : Upd) (s : State) (x : ChannelId) :
    (updateState u s).chan x =
      { emitOp s.config (advanced u s x).1 with eoc := (advanced u s x).2, trig := trigOf u s x } := by
  cases x <;> rfl

@[simp] theorem updateState_bwp (u : Upd) (s : State) : (updateState u s).bwp = u.btn := rfl
@[simp] theorem updateState_pflag (u : Upd) (s : State) : (updateState u s).pflag = false := rfl
@[simp] theorem updateState_res (u : Upd) (s : State) : (updateState u s).res = s.res := rfl
@[simp] theorem updateState_errc (u : Upd) (s : State) : (updateState u s).errc = 0#2 := rfl
@[simp] theorem updateState_config (u : Upd) (s : State) : (updateState u s).config = s.config := rfl
@[simp] theorem updateState_cmds (u : Upd) (s : State) : (updateState u s).cmds = s.cmds := rfl

theorem updateState_pulseOut (u : Upd) (s : State) :
    (updateState u s).pulseOut = ((advanced u s .a).2 || (advanced u s .b).2) := rfl

@[simp] theorem exec_update (u : Upd) (s : State) : exec (.update u) s = .next (updateState u s) := rfl

/-- ADV answers in one of five ways. -/
theorem adv_cases (now tDec : Nat) (blend : Int) (ch : Channel) :
    (ch.stage = .idle ∧ adv now tDec blend ch = ({ ch with level := word 0 }, false)) ∨
    (ch.stage = .attack ∧ ch.dur.toNat ≤ elapsed now ch.start ∧
      adv now tDec blend ch =
        ({ ch with level := word 32768, stage := .decay, start := BitVec.ofNat 32 now, dur := BitVec.ofNat 32 tDec },
          false)) ∨
    (ch.stage = .attack ∧ elapsed now ch.start < ch.dur.toNat ∧
      adv now tDec blend ch =
        ({ ch with level := word (shape (lin (elapsed now ch.start) ch.dur.toNat) blend true) }, false)) ∨
    (ch.stage = .decay ∧ ch.dur.toNat ≤ elapsed now ch.start ∧
      adv now tDec blend ch = ({ ch with level := word 0, stage := .idle }, true)) ∨
    (ch.stage = .decay ∧ elapsed now ch.start < ch.dur.toNat ∧
      adv now tDec blend ch =
        ({ ch with level := word (shape (32768 - lin (elapsed now ch.start) ch.dur.toNat) blend false) },
          false)) := by
  obtain ⟨stage, level, start, dur, gwh, vout, eoc, trig⟩ := ch
  cases stage with
  | idle => simp [adv, advIdle]
  | attack =>
    rcases Nat.lt_or_ge (elapsed now start) dur.toNat with h | h
    · simp [adv, advAttack, h, Nat.not_le.mpr h]
    · simp [adv, advAttack, h, Nat.not_lt.mpr h]
  | decay =>
    rcases Nat.lt_or_ge (elapsed now start) dur.toNat with h | h
    · simp [adv, advDecay, h, Nat.not_le.mpr h]
    · simp [adv, advDecay, h, Nat.not_lt.mpr h]

/-- ADV leaves the latch, the output register and the status registers alone. -/
theorem adv_frame (now tDec : Nat) (blend : Int) (ch : Channel) :
    (adv now tDec blend ch).1.gwh = ch.gwh ∧ (adv now tDec blend ch).1.vout = ch.vout ∧
      (adv now tDec blend ch).1.eoc = ch.eoc ∧ (adv now tDec blend ch).1.trig = ch.trig := by
  obtain ⟨-, h⟩ | ⟨-, -, h⟩ | ⟨-, -, h⟩ | ⟨-, -, h⟩ | ⟨-, -, h⟩ := adv_cases now tDec blend ch <;> simp [h]

/-- With a blend in `[0, ONE]`, ADV answers a level in `[0, ONE]`, whatever the state. -/
theorem adv_level_mem (now tDec : Nat) {blend : Int} (hb : 0 ≤ blend) (hb' : blend ≤ 32768) (ch : Channel) :
    0 ≤ (adv now tDec blend ch).1.level.toInt ∧ (adv now tDec blend ch).1.level.toInt ≤ 32768 := by
  obtain ⟨-, h⟩ | ⟨-, -, h⟩ | ⟨-, lt, h⟩ | ⟨-, -, h⟩ | ⟨-, lt, h⟩ := adv_cases now tDec blend ch
  · simp only [h]; decide
  · simp only [h]; decide
  · have l := lin_lt lt
    have m := shape_mem (pos := lin (elapsed now ch.start) ch.dur.toNat) true (by omega) (by omega) hb hb'
    simp only [h]
    rw [word_toInt (by omega) (by omega)]
    exact m
  · simp only [h]; decide
  · have l := lin_lt lt
    have m := shape_mem (pos := 32768 - lin (elapsed now ch.start) ch.dur.toNat) false (by omega) (by omega) hb hb'
    simp only [h]
    rw [word_toInt (by omega) (by omega)]
    exact m

/-- Step 6's clamp is the identity on a level in range, so only `VOUT_X` changes. -/
theorem emitOp_of_mem (c : Config) {ch : Channel} (h : 0 ≤ ch.level.toInt) (h' : ch.level.toInt ≤ 32768) :
    emitOp c ch = { ch with vout := word (vconv c ch.level.toInt) } := by
  have same : word ch.level.toInt = ch.level := by simp [word]
  simp [emitOp, clamp_of_mem h h', same]

end Sys2Proof.Machine
end

