-- ==== Sys2Proof/Laws/Step.lean ====
section
/-! SUPPORT. What a step can do, said once: it waits, it executes a decoded command, or it rejects one. -/

namespace Sys2Proof.Machine

/-- Every command answers a next state. -/
theorem exec_next (i : Instr) (s : State) : ∃ t, exec i s = .next t := by
  have eval := fun ok v => evaluate_cases ok v s
  cases i with
  | nop => exact ⟨_, rfl⟩
  | reset => exact ⟨_, rfl⟩
  | update u => exact ⟨_, rfl⟩
  | tmap k => rcases eval _ _ with ⟨-, h⟩ | ⟨-, h⟩ <;> exact ⟨_, h⟩
  | u8q15 v => rcases eval _ _ with ⟨-, h⟩ | ⟨-, h⟩ <;> exact ⟨_, h⟩
  | qmul a b => rcases eval _ _ with ⟨-, h⟩ | ⟨-, h⟩ <;> exact ⟨_, h⟩
  | lerp a b t => rcases eval _ _ with ⟨-, h⟩ | ⟨-, h⟩ <;> exact ⟨_, h⟩
  | clamp v lo hi => rcases eval _ _ with ⟨-, h⟩ | ⟨-, h⟩ <;> exact ⟨_, h⟩
  | shape pos blend isAttack => rcases eval _ _ with ⟨-, h⟩ | ⟨-, h⟩ <;> exact ⟨_, h⟩
  | vconv level => exact ⟨_, rfl⟩

/-- What a command can do to the state: one of five ways, with the commands that can take each. -/
theorem exec_cases {i : Instr} {s t : State} (h : exec i s = .next t) :
    (i = .nop ∧ t = { s with errc := 0#2 }) ∨
    (i = .reset ∧ t = State.atReset s.config s.cmds) ∨
    (∃ u, i = .update u ∧ t = updateState u s) ∨
    (i ≠ .nop ∧ i ≠ .reset ∧ (∀ u, i ≠ .update u) ∧ ∃ v, t = { s with res := word v, errc := 0#2 }) ∨
    (i ≠ .nop ∧ i ≠ .reset ∧ (∀ u, i ≠ .update u) ∧ (∀ level, i ≠ .vconv level) ∧ t = { s with errc := 2#2 }) := by
  have eval : ∀ ok v, evaluate ok v s = .next t →
      t = { s with res := word v, errc := 0#2 } ∨ t = { s with errc := 2#2 } := by
    intro ok v e
    rcases evaluate_cases ok v s with ⟨-, e'⟩ | ⟨-, e'⟩ <;> rw [e'] at e <;> cases e
    · exact .inl rfl
    · exact .inr rfl
  cases i with
  | nop => cases h; exact .inl ⟨rfl, rfl⟩
  | reset => cases h; exact .inr (.inl ⟨rfl, rfl⟩)
  | update u => cases h; exact .inr (.inr (.inl ⟨u, rfl, rfl⟩))
  | vconv level => cases h; exact .inr (.inr (.inr (.inl ⟨nofun, nofun, nofun, _, rfl⟩)))
  | tmap k =>
    rcases eval _ _ h with e | e
    · exact .inr (.inr (.inr (.inl ⟨nofun, nofun, nofun, _, e⟩)))
    · exact .inr (.inr (.inr (.inr ⟨nofun, nofun, nofun, nofun, e⟩)))
  | u8q15 v =>
    rcases eval _ _ h with e | e
    · exact .inr (.inr (.inr (.inl ⟨nofun, nofun, nofun, _, e⟩)))
    · exact .inr (.inr (.inr (.inr ⟨nofun, nofun, nofun, nofun, e⟩)))
  | qmul a b =>
    rcases eval _ _ h with e | e
    · exact .inr (.inr (.inr (.inl ⟨nofun, nofun, nofun, _, e⟩)))
    · exact .inr (.inr (.inr (.inr ⟨nofun, nofun, nofun, nofun, e⟩)))
  | lerp a b t =>
    rcases eval _ _ h with e | e
    · exact .inr (.inr (.inr (.inl ⟨nofun, nofun, nofun, _, e⟩)))
    · exact .inr (.inr (.inr (.inr ⟨nofun, nofun, nofun, nofun, e⟩)))
  | clamp v lo hi =>
    rcases eval _ _ h with e | e
    · exact .inr (.inr (.inr (.inl ⟨nofun, nofun, nofun, _, e⟩)))
    · exact .inr (.inr (.inr (.inr ⟨nofun, nofun, nofun, nofun, e⟩)))
  | shape pos blend isAttack =>
    rcases eval _ _ h with e | e
    · exact .inr (.inr (.inr (.inl ⟨nofun, nofun, nofun, _, e⟩)))
    · exact .inr (.inr (.inr (.inr ⟨nofun, nofun, nofun, nofun, e⟩)))

/-- A step waits, executes the oldest command, or rejects it. -/
theorem step_cases (s : State) :
    (s.cmds = [] ∧ step s = .next s) ∨
    (∃ c rest i, s.cmds = c :: rest ∧ decode c = .ok i ∧ step s = exec i (s.setCmds rest)) ∨
    (∃ c rest e, s.cmds = c :: rest ∧ decode c = .error e ∧ step s = .next { s with errc := 1#2, cmds := rest }) := by
  match h : s.cmds with
  | [] => exact .inl ⟨rfl, by simp [step, fetch_nil h, idleStep]⟩
  | c :: rest =>
    cases d : decode c with
    | ok i => exact .inr (.inl ⟨c, rest, i, rfl, d, by simp [step, fetch_cons h, runCommand, d]⟩)
    | error e =>
      exact .inr (.inr ⟨c, rest, e, rfl, d, by simp [step, fetch_cons h, runCommand, d, State.setCmds]⟩)

end Sys2Proof.Machine
end

