-- ==== Sys2Proof/Tests/Slice0.lean ====
section
/-! SUPPORT. Tests. The expected values are those of spec/95_test_vectors.md (its section is named at each
group) or of the example the cited rule gives. The last part shows, for every statement with hypotheses,
concrete values that meet them. -/

namespace Sys2Proof.Tests

open Sys2Proof.Machine

/-- The next state, if the outcome is one. -/
def nextOf : Host.Outcome State Fault Refusal → Option State
  | .next s => some s
  | .fault _ => none
  | .refused _ => none

/-- A command run from a state: `RES` and `ERRC` after it. -/
def evalOf (c : Command) (s : State) : Option (Word × BitVec 2) := (nextOf (runCommand c s)).map fun t => (t.res, t.errc)

/-- Reset, with 77 in `RES`, so that an unchanged `RES` shows. -/
def marked : State := State.reset.setRes 77#32

/-- Channel A in a stage, begun at 0 with duration 1000, at a level. -/
def inStage (g : Stage) (level : Word) : State :=
  State.reset.setChan .a { State.reset.chan .a with stage := g, level := level, dur := 1000#32, start := 0#32 }

/-! ### WellFormed refuses an ill-formed term, one for each check -/

theorem test_now_wide : (Instr.update { now := 4294967296 }).wellFormed = false := by decide
theorem test_now_max : (Instr.update { now := 4294967295 }).wellFormed = true := by decide
theorem test_knobs_wide :
    (Instr.update { now := 0, potAtt := 256 }).wellFormed = false ∧
    (Instr.update { now := 0, potDec := 256 }).wellFormed = false ∧
    (Instr.update { now := 0, potShape := 256 }).wellFormed = false := by decide
theorem test_gates_wide :
    (Instr.update { now := 0, gateA := 2147483648 }).wellFormed = false ∧
    (Instr.update { now := 0, gateB := -2147483649 }).wellFormed = false := by decide
theorem test_args_wide :
    (Instr.tmap 2147483648).wellFormed = false ∧ (Instr.u8q15 (-2147483649)).wellFormed = false ∧
    (Instr.qmul 2147483648 0).wellFormed = false ∧ (Instr.qmul 0 2147483648).wellFormed = false ∧
    (Instr.lerp 2147483648 0 0).wellFormed = false ∧ (Instr.lerp 0 2147483648 0).wellFormed = false ∧
    (Instr.lerp 0 0 2147483648).wellFormed = false ∧ (Instr.clamp 2147483648 0 0).wellFormed = false ∧
    (Instr.clamp 0 2147483648 0).wellFormed = false ∧ (Instr.clamp 0 0 2147483648).wellFormed = false ∧
    (Instr.shape 2147483648 0 0).wellFormed = false ∧ (Instr.shape 0 2147483648 0).wellFormed = false ∧
    (Instr.shape 0 0 2147483648).wellFormed = false ∧ (Instr.vconv 2147483648).wellFormed = false := by decide
theorem test_illegal_commands :
    Command.legal ⟨0x0A#8, 0#128⟩ = false ∧ Command.legal ⟨0x12#8, 0#128⟩ = false ∧
    Command.legal ⟨0x09#8, 0#128⟩ = true := by decide

/-! ### Decoding: every row of the opcode table, by a command of spec/95 section 2 or 3 -/

theorem test_decode_nop : decode ⟨0b00000000#8, 0xFFFF#128⟩ = .ok .nop := by rfl
theorem test_decode_reset : decode ⟨0b00000001#8, 0xFFFF#128⟩ = .ok .reset := by rfl
theorem test_decode_update : decode ⟨0b00000010#8, 0x000280000000000000800505FFFFFED8#128⟩ =
    .ok (.update { now := 4294967000, potAtt := 5, potDec := 5, potShape := 128, gateB := 163840 }) := by rfl
theorem test_decode_update_bits : decode ⟨0b00000010#8, 0x00000000FFFF80000100000000000064#128⟩ =
    .ok (.update { now := 100, btn := true, gateA := -32768 }) := by rfl
theorem test_decode_tmap : decode ⟨0b00000011#8, 0xFFFFFFFF#128⟩ = .ok (.tmap (-1)) := by rfl
theorem test_decode_u8q15 : decode ⟨0b00000100#8, 0xFF#128⟩ = .ok (.u8q15 255) := by rfl
theorem test_decode_qmul : decode ⟨0b00000101#8, 0x0000000000000000FFFF800000008000#128⟩ =
    .ok (.qmul 32768 (-32768)) := by rfl
theorem test_decode_lerp : decode ⟨0b00000110#8, 0x000000000000404000000A250000240A#128⟩ =
    .ok (.lerp 9226 2597 16448) := by rfl
theorem test_decode_clamp : decode ⟨0b00000111#8, 0x000000000000000AFFFFFFF67FFFFFFF#128⟩ =
    .ok (.clamp 2147483647 (-10) 10) := by rfl
theorem test_decode_shape : decode ⟨0b00001000#8, 0x00000000000000010000800000006000#128⟩ =
    .ok (.shape 24576 32768 1) := by rfl
theorem test_decode_vconv : decode ⟨0b00001001#8, 0x80000000#128⟩ = .ok (.vconv (-2147483648)) := by rfl
theorem test_decode_reserved_op : decode ⟨0b00001111#8, 0#128⟩ = .error .reservedOp := by rfl
theorem test_decode_reserved_bits : decode ⟨0b10000000#8, 0#128⟩ = .error .reservedBits := by rfl
theorem test_decodeTableWord : decodeTableWord 8 6 = some (.lerp 0 0 0) ∧ decodeTableWord 8 0x0A = none := by decide
theorem test_decodeTableWord_frame : decodeTableWord 136 0xFF03 = some (.tmap 255) := by decide

/-! ### Evaluation commands: spec/95 sections 2.1 to 2.7 -/

theorem test_qmul_floor : evalOf ⟨0x05#8, 0x000000000000000000002AABFFFFFFFD#128⟩ marked = some (word (-2), 0#2) := by decide
theorem test_qmul_edge : evalOf ⟨0x05#8, 0x0000000000000000FFFF800000008000#128⟩ marked = some (word (-32768), 0#2) ∧
    evalOf ⟨0x05#8, 0x0000000000000000FFFF7FFF00000000#128⟩ marked = some (77#32, 2#2) := by decide
theorem test_lerp_floor : evalOf ⟨0x06#8, 0x00000000000000010000003200000064#128⟩ marked = some (99#32, 0#2) := by decide
theorem test_lerp_edge : evalOf ⟨0x06#8, 0x00000000000080000000800000000000#128⟩ marked = some (32768#32, 0#2) ∧
    evalOf ⟨0x06#8, 0x00000000000080010000000000000000#128⟩ marked = some (77#32, 2#2) := by decide
theorem test_clamp_ends : evalOf ⟨0x07#8, 0x000000000000000AFFFFFFF680000000#128⟩ marked = some (word (-10), 0#2) ∧
    evalOf ⟨0x07#8, 0x000000000000000AFFFFFFF67FFFFFFF#128⟩ marked = some (10#32, 0#2) := by decide
theorem test_clamp_inside_and_error : evalOf ⟨0x07#8, 0x00000000000000070000000700000007#128⟩ marked = some (7#32, 0#2) ∧
    evalOf ⟨0x07#8, 0x00000000000000040000000500000000#128⟩ marked = some (77#32, 2#2) := by decide
theorem test_u8q15_knee : evalOf ⟨0x04#8, 0x7F#128⟩ marked = some (16319#32, 0#2) ∧
    evalOf ⟨0x04#8, 0x80#128⟩ marked = some (16448#32, 0#2) := by decide
theorem test_u8q15_edge : evalOf ⟨0x04#8, 0xFF#128⟩ marked = some (32768#32, 0#2) ∧
    evalOf ⟨0x04#8, 0x100#128⟩ marked = some (77#32, 2#2) := by decide
theorem test_tmap_middle : evalOf ⟨0x03#8, 0x40#128⟩ marked = some (80031#32, 0#2) ∧
    evalOf ⟨0x03#8, 0x02#128⟩ marked = some (1002#32, 0#2) := by decide
theorem test_tmap_edge : evalOf ⟨0x03#8, 0xFF#128⟩ marked = some (5000000#32, 0#2) ∧
    evalOf ⟨0x03#8, 0xFFFFFFFF#128⟩ marked = some (77#32, 2#2) := by decide
theorem test_shape_directions : evalOf ⟨0x08#8, 0x00000000000000010000202000002710#128⟩ marked = some (8255#32, 0#2) ∧
    evalOf ⟨0x08#8, 0x00000000000000000000202000002710#128⟩ marked = some (11744#32, 0#2) := by decide
theorem test_shape_edge : evalOf ⟨0x08#8, 0x00000000000000000000800000000001#128⟩ marked = some (2#32, 0#2) ∧
    evalOf ⟨0x08#8, 0x00000000000000020000000000000000#128⟩ marked = some (77#32, 2#2) := by decide
theorem test_vconv : evalOf ⟨0x09#8, 0x7FFF#128⟩ marked = some (327675#32, 0#2) ∧
    evalOf ⟨0x09#8, 0xFFFFFFFF#128⟩ marked = some (163840#32, 0#2) ∧
    evalOf ⟨0x09#8, 0x9C40#128⟩ marked = some (327680#32, 0#2) := by decide

/-! ### NOP, RESET and illegal commands: spec/95 sections 2.11 and 2.12 -/

theorem test_nop_clears_error : nextOf (runCommand ⟨0x00#8, 0#128⟩ (marked.setErrc 2#2)) = some marked := by decide
theorem test_reset_from_decay : (nextOf (runCommand ⟨0x01#8, 0#128⟩ (inStage .decay 12000#32))).map outFrame =
    some 0x00000000000000000002800000028000#128 := by decide
theorem test_illegal_before_domain : nextOf (runCommand ⟨0x15#8, 0x8001#128⟩ marked) = some (marked.setErrc 1#2) := by decide
theorem test_illegal_update_does_not_run :
    nextOf (runCommand ⟨0x12#8, 0x00000000000280000000000000000000#128⟩ marked) = some (marked.setErrc 1#2) := by decide

/-! ### UPDATE and its micro-operations AGG, ADV and TRIG: spec/95 sections 2.8, 2.9 and 3 -/

theorem test_update_gate_threshold :
    (nextOf (exec (.update { now := 0, gateA := 32768 }) State.reset)).map (fun t => t.chA.trig) = some false ∧
    (nextOf (exec (.update { now := 0, gateA := 32769 }) State.reset)).map (fun t => (t.chA.trig, t.chB.trig)) =
      some (true, false) := by decide
/-- P2, step 2: the frame after an UPDATE in Attack at full blend. -/
theorem test_update_p2_step2 :
    (nextOf (runCommand ⟨0x02#8, 0x000000000000000001FF0A0A0000299A#128⟩
      (updateState { now := 10000, potAtt := 10, potDec := 10, potShape := 255, btn := true } State.reset))).map outFrame =
      some 0x1FF31FF3000000A000031FBF00031FBF#128 := by decide
theorem test_attack_boundary :
    (nextOf (exec (.update { now := 999 }) (inStage .attack 0#32))).map (fun t => (t.chA.stage, t.chA.level)) =
      some (.attack, 32735#32) ∧
    (nextOf (exec (.update { now := 1000 }) (inStage .attack 0#32))).map (fun t => (t.chA.stage, t.chA.level, t.chA.start)) =
      some (.decay, 32768#32, 1000#32) := by decide
theorem test_trigger_where_decay_ends :
    (nextOf (exec (.update { now := 2000, gateA := 163840 }) (inStage .decay 1#32))).map
      (fun t => (t.chA.trig, t.chA.eoc, t.pulseOut, t.chA.stage, t.chA.level)) =
      some (true, false, false, .attack, 0#32) := by decide

/-! ### The step, and the host's way to place a command -/

theorem test_step_takes_the_oldest :
    (nextOf (step (issue ⟨0x0A#8, 0#128⟩ (issue ⟨0x04#8, 2#128⟩ State.reset)))).map (fun t => (t.res, t.errc, t.cmds)) =
      some (257#32, 0#2, [⟨0x0A#8, 0#128⟩]) := by decide
theorem test_withFetchWord_runs :
    (nextOf (step (State.reset.withFetchWord 8 9))).map (fun t => (t.res, t.cmds)) = some (163840#32, []) := by decide

/-! ### The assembler: R82's notation, with the frames of spec/95 sections 2 and 3 -/

theorem test_assemble_update :
    assemble "UPDATE now=100 ga=5.0V btn=1 ; P4, step 2".toList =
      .ok [⟨0x02#8, 0x00000000000280000100000000000064#128⟩] := by rfl
theorem test_assemble_eval :
    assemble "CLAMP -2147483648, -10, 0xA\nNOP".toList =
      .ok [⟨0x07#8, 0x000000000000000AFFFFFFF680000000#128⟩, ⟨0x00#8, 0#128⟩] := by rfl
theorem test_assemble_pseudo :
    assembleLine "POLL now=7".toList = .ok (some (.update { now := 7 })) ∧
    assembleLine "TRIGALL now=7".toList = .ok (some (.update { now := 7, pedge := true })) := ⟨by rfl, by rfl⟩
theorem test_assemble_refuses :
    assembleLine "UPDATE att=1".toList = .error .missingNow ∧
    assembleLine "UPDATE now=0 ga=0.00001V".toList = .error .fractionalCode ∧
    assembleLine "UPDATE now=0 att=256".toList = .error .outOfRange ∧
    assembleLine "QMUL 1".toList = .error .operandCount := ⟨by rfl, by rfl, by rfl, by rfl⟩

/-! ### Witnesses: values that meet each statement's hypotheses -/

theorem witness_first_update_gate : State.reset.config.gateTh < ({ now := 0, gateA := 32769 } : Upd).gate .a := by decide
theorem witness_first_update_button : ({ now := 0, btn := true } : Upd).btn = true := by decide
/-- ResetForgetsTheEnvelope: two different states with one parameter set and queue. -/
theorem witness_reset_pair : (inStage .decay 5#32).config = State.reset.config ∧
    (inStage .decay 5#32).cmds = State.reset.cmds ∧ inStage .decay 5#32 ≠ State.reset := by decide
theorem witness_qmul_domain : (-32768 : Int) ≤ -32768 ∧ (-32768 : Int) ≤ 32768 ∧ (-32768 : Int) ≤ 32768 ∧ (32768 : Int) ≤ 32768 := by decide
theorem witness_qmul_outside : ¬((-32768 : Int) ≤ 32769 ∧ (32769 : Int) ≤ 32768 ∧ (-32768 : Int) ≤ 0 ∧ (0 : Int) ≤ 32768) := by decide
/-- LerpBlendsInItsDomain and LerpRunsFromOneEndToTheOther. -/
theorem witness_lerp_domain : (0 : Int) ≤ 0 ∧ (0 : Int) ≤ 32768 ∧ (0 : Int) ≤ 32768 ∧ (32768 : Int) ≤ 32768 := by decide
theorem witness_lerp_outside : ¬((0 : Int) ≤ -1 ∧ (-1 : Int) ≤ 32768 ∧ (0 : Int) ≤ 0 ∧ (0 : Int) ≤ 32768 ∧ (0 : Int) ≤ 0 ∧ (0 : Int) ≤ 32768) := by decide
theorem witness_clamp_below : (0 : Int) ≤ 0 ∧ (-1 : Int) < 0 := by decide
theorem witness_clamp_above : (0 : Int) ≤ 0 ∧ (0 : Int) < 1 := by decide
theorem witness_clamp_inside : (7 : Int) ≤ 7 ∧ (7 : Int) ≤ 7 := by decide
theorem witness_clamp_outside : (4 : Int) < 5 := by decide
/-- U8q15ConvertsAKnob and TmapMapsAKnobToADuration, both ends of each clause. -/
theorem witness_knob_domain : ((0 : Int) ≤ 0 ∧ (0 : Int) ≤ 255) ∧ ((0 : Int) ≤ 255 ∧ (255 : Int) ≤ 255) := by decide
theorem witness_knob_outside : ¬((0 : Int) ≤ 256 ∧ (256 : Int) ≤ 255) ∧ ¬((0 : Int) ≤ -1 ∧ (-1 : Int) ≤ 255) := by decide
/-- ShapeBlendsLineAndCurve, ShapeStaysInRangeAndIsPinned and ShapeIsNonDecreasingInPosition. -/
theorem witness_shape_domain : (0 : Int) ≤ 0 ∧ (0 : Int) ≤ 32768 ∧ (32768 : Int) ≤ 32768 := by decide
theorem witness_shape_outside : ¬((0 : Int) ≤ 0 ∧ (0 : Int) ≤ 32768 ∧ (0 : Int) ≤ 0 ∧ (0 : Int) ≤ 32768 ∧ ((2 : Int) = 0 ∨ (2 : Int) = 1)) := by decide
theorem witness_q15_range : (-32768 : Int) ≤ -32768 ∧ (-32768 : Int) ≤ 32768 ∧ (32768 : Int) ≤ 32768 := by decide
theorem witness_u8_step : (254 : Nat) ≤ 255 ∧ (254 : Nat) < 255 := by decide
theorem witness_time_map : (254 : Nat) ≤ 255 ∧ (255 : Nat) ≤ 255 ∧ Config.default.tCeil - Config.default.tFloor < 16581375 := by decide
theorem witness_lin : (998 : Nat) ≤ 999 ∧ (999 : Nat) < 1000 := by decide
/-- ElapsedIsTrueTimeAcrossAWrap: P3 of spec/95, where the clock wraps between trigger and Decay. -/
theorem witness_elapsed_wrap : (4294967000#32).toNat = 4294967000 % 4294967296 ∧ 4294967000 ≤ 4294968037 ∧
    4294968037 - 4294967000 < 4294967296 ∧ elapsed (4294968037 % 4294967296) 4294967000#32 = 1037 := by decide
theorem witness_restart : ({ now := 5000, gateA := 32769 } : Upd).wellFormed = true ∧
    Fires { now := 5000, gateA := 32769 } (inStage .decay 20000#32) .a := by decide
theorem witness_restart_button : Fires { now := 0, btn := true } State.reset .b := by decide
theorem witness_restart_pulse : Fires { now := 0, pedge := true } State.reset .b := by decide
theorem witness_idle : ¬Fires { now := 0, gateA := 32768 } State.reset .a ∧ (State.reset.chan .a).stage = .idle := by decide
/-- AttackRisesThenSnapsIntoDecay: both clauses, at the boundary. -/
theorem witness_attack : ({ now := 1000 } : Upd).wellFormed = true ∧ ¬Fires { now := 1000 } (inStage .attack 0#32) .a ∧
    ((inStage .attack 0#32).chan .a).stage = .attack ∧
    ((inStage .attack 0#32).chan .a).dur.toNat ≤ elapsed 1000 ((inStage .attack 0#32).chan .a).start ∧
    elapsed 999 ((inStage .attack 0#32).chan .a).start < ((inStage .attack 0#32).chan .a).dur.toNat := by decide
/-- DecayFallsThenEndsTheCycle: both clauses, at the boundary. -/
theorem witness_decay : ({ now := 999 } : Upd).wellFormed = true ∧ ¬Fires { now := 999 } (inStage .decay 9#32) .a ∧
    ((inStage .decay 9#32).chan .a).stage = .decay ∧
    ((inStage .decay 9#32).chan .a).dur.toNat ≤ elapsed 1000 ((inStage .decay 9#32).chan .a).start ∧
    elapsed 999 ((inStage .decay 9#32).chan .a).start < ((inStage .decay 9#32).chan .a).dur.toNat := by decide
/-- AtMostOneStageTransitionPerUpdate: an UPDATE that ends a cycle. -/
theorem witness_transition : ({ now := 1000 } : Upd).wellFormed = true ∧
    exec (.update { now := 1000 }) (inStage .decay 9#32) = .next (updateState { now := 1000 } (inStage .decay 9#32)) ∧
    ((updateState { now := 1000 } (inStage .decay 9#32)).chan .a).eoc = true := ⟨by decide, rfl, by decide⟩
/-- HeldSourcesTriggerOnce: a gate and a button held, and a pulse reported, over two UPDATEs. -/
theorem witness_held :
    let u : Upd := { now := 0, gateA := 163840, btn := true }
    exec (.update u) State.reset = .next (updateState u State.reset) ∧
    exec (.update u) (updateState u State.reset) = .next (updateState u (updateState u State.reset)) ∧
    u.pedge = false ∧ State.reset.config.gateTh < u.gate .a := ⟨rfl, rfl, rfl, by decide⟩
theorem witness_pulse_twice : ({ now := 0, pedge := true } : Upd).pedge = true := rfl
/-- ChannelsNeverReadEachOther: states and gates that differ in channel A alone. -/
theorem witness_isolation :
    let u : Upd := { now := 3, gateA := 163840 }
    let u' : Upd := { now := 3 }
    (inStage .decay 9#32).chan .b = State.reset.chan .b ∧ (inStage .decay 9#32).chan .a ≠ State.reset.chan .a ∧
    (inStage .decay 9#32).bwp = State.reset.bwp ∧ (inStage .decay 9#32).config = State.reset.config ∧
    u.gate .b = u'.gate .b ∧ u.gate .a ≠ u'.gate .a := by decide
/-- UpdateReadsNoOutputRegister: states that differ in outputs, levels and the pulse flag. -/
theorem witness_unread :
    let s := (inStage .attack 9#32)
    let s' := ((inStage .attack 10#32).setRes 1#32).setPflag true
    (∀ x, (s.chan x).stage = (s'.chan x).stage ∧ (s.chan x).start = (s'.chan x).start ∧
      (s.chan x).dur = (s'.chan x).dur ∧ (s.chan x).gwh = (s'.chan x).gwh) ∧
    s.bwp = s'.bwp ∧ s.config = s'.config ∧ s.cmds = s'.cmds ∧ s ≠ s' := by
  refine ⟨fun x => by cases x <;> decide, rfl, rfl, rfl, by decide⟩
/-- TimeKnobsWaitForATransition: a running channel, and a triggered one. -/
theorem witness_knobs : ({ now := 500 } : Upd).wellFormed = true ∧ isU8 255 = true ∧ isU8 7 = true ∧
    ¬Fires { now := 500 } (inStage .attack 0#32) .a ∧
    elapsed 500 ((inStage .attack 0#32).chan .a).start < ((inStage .attack 0#32).chan .a).dur.toNat ∧
    Fires { now := 500, pedge := true } (inStage .attack 0#32) .a := by decide
/-- LevelsRiseInAttackAndFallInDecay: two polls of a running channel, in each stage. -/
theorem witness_levels (g : Stage) (h : g ≠ .idle) :
    let u : Upd := { now := 250 }
    let u' : Upd := { now := 999 }
    let s := inStage g 5#32
    let t := updateState u s
    u.wellFormed = true ∧ u'.wellFormed = true ∧ exec (.update u) s = .next t ∧
    exec (.update u') t = .next (updateState u' t) ∧ ¬Fires u s .a ∧ ¬Fires u' t .a ∧
    elapsed u.now (s.chan .a).start ≤ elapsed u'.now (s.chan .a).start ∧
    elapsed u'.now (s.chan .a).start < (s.chan .a).dur.toNat := by
  cases g with
  | idle => exact absurd rfl h
  | attack => exact ⟨by decide, by decide, rfl, rfl, by decide, by decide, by decide, by decide⟩
  | decay => exact ⟨by decide, by decide, rfl, rfl, by decide, by decide, by decide, by decide⟩
/-- FullCycleTakesAttackPlusDecay: P1 of spec/95. -/
theorem witness_cycle :
    let u0 : Upd := { now := 0, gateA := 163840 }
    let u1 : Upd := { now := 1000, gateA := 163840 }
    let u2 : Upd := { now := 2000, gateA := 163840 }
    let u3 : Upd := { now := 2100 }
    let t0 := updateState u0 State.reset
    let t1 := updateState u1 t0
    let t2 := updateState u2 t1
    Fires u0 State.reset .a ∧ ¬Fires u1 t0 .a ∧ ¬Fires u2 t1 .a ∧ ¬Fires u3 t2 .a ∧
    u1.now = (u0.now + timeMap State.reset.config u0.potAtt) % 4294967296 ∧
    u2.now = (u1.now + timeMap State.reset.config u1.potDec) % 4294967296 := by decide
/-- QuietPollsKeepAnIdleChannelIdle: the three polls of L1.1 of spec/95. -/
theorem witness_quiet :
    let us : List Upd := [{ now := 0 }, { now := 1000000 }, { now := 4000000000 }]
    let s := State.reset.setCmds (us.map fun u => encode (.update u))
    (∀ u ∈ us, u.wellFormed = true ∧ Quiet u s.config .a) ∧ (s.chan .a).stage = .idle ∧ (s.chan .a).level = 0#32 := by
  decide

theorem reset_channel_inv (x : ChannelId) : Channel.Inv Config.default (State.reset.chan x) := by
  cases x <;> exact ⟨by decide, by decide, by decide, by decide, by decide, by decide, by decide⟩

/-- A running channel that meets the invariant. -/
def running : State := inStage .attack 0#32

/-- HostClockGivesTrueElapsedTime and EveryStepKeepsTheInvariants: a running state meets them. -/
theorem witness_running_inv : running.Inv :=
  ⟨fun x => by cases x <;> exact ⟨by decide, by decide, by decide, by decide, by decide, by decide, by decide⟩, rfl⟩
/-- HostClockGivesTrueElapsedTime: a stage begun at 0, an UPDATE at 999 that begins none, and a step. -/
theorem witness_clock_running :
    let u : Upd := { now := 999 }
    let s := issue (encode (.update u)) running
    s.Inv ∧ (s.chan .a).OnClock 0 0 ∧ (s.chan .a).stage ≠ .idle ∧ step s = .next (updateState u running) ∧
    decode (encode (.update u)) = .ok (.update u) ∧ u.now = 999 % 4294967296 ∧
    999 - 0 < 4294967296 - s.config.tCeil ∧ ¬Begins u s .a :=
  ⟨⟨witness_running_inv.channel, rfl⟩, fun _ => ⟨by decide, by decide, by decide⟩, by decide, rfl, rfl, by decide, by decide, by decide⟩
/-- The same state with an UPDATE at 1000, which begins Decay. -/
theorem witness_clock_boundary :
    let u : Upd := { now := 1000 }
    let s := issue (encode (.update u)) running
    step s = .next (updateState u running) ∧ decode (encode (.update u)) = .ok (.update u) ∧
    1000 - 0 < 4294967296 - s.config.tCeil ∧ Begins u s .a := ⟨rfl, rfl, by decide, by decide⟩
/-- A stage begun from Idle, at a true time past the clock's first wrap, after any gap. -/
theorem witness_clock_from_idle :
    let u : Upd := { now := 5, btn := true }
    let s := issue (encode (.update u)) State.reset
    s.Inv ∧ (s.chan .b).OnClock 0 0 ∧ step s = .next (updateState u State.reset) ∧
    decode (encode (.update u)) = .ok (.update u) ∧ u.now = 4294967301 % 4294967296 ∧ (s.chan .b).stage = .idle ∧
    Begins u s .b := ⟨⟨reset_channel_inv, rfl⟩, fun h => absurd rfl h, rfl, rfl, by decide, by decide, by decide⟩
/-- A step over a command that is no UPDATE. -/
theorem witness_clock_other : step (issue ⟨0x00#8, 0#128⟩ running) = .next running ∧
    ∀ u, decode ⟨0x00#8, 0#128⟩ ≠ .ok (.update u) := ⟨rfl, fun _ h => nomatch h⟩
/-- EveryStepKeepsAQuietChannelIdle: a quiet UPDATE waits before a NOP, and channel B is running. -/
theorem witness_quiet_for :
    let u : Upd := { now := 7, gateA := 32768, gateB := 163840 }
    let s := (State.reset.setChan .b { State.reset.chan .b with stage := .decay }).setCmds
      [encode (.update u), ⟨0x00#8, 0#128⟩]
    s.QuietFor .a ∧ decode (encode (.update u)) = .ok (.update u) ∧ ∃ t, step s = .next t := by
  refine ⟨⟨rfl, rfl, fun c h v e => ?_⟩, rfl, ⟨_, rfl⟩⟩
  simp only [State.setCmds, List.mem_cons, List.not_mem_nil, or_false] at h
  obtain rfl | rfl := h <;> cases e
  decide
theorem witness_running_status : running.StatusInv :=
  ⟨fun x => by cases x <;> decide, fun x => by cases x <;> decide, by decide, by decide⟩
theorem witness_reset_inv : State.reset.Inv := ⟨reset_channel_inv, rfl⟩
theorem witness_reset_status : State.reset.StatusInv :=
  ⟨fun x => by cases x <;> decide, fun x => by cases x <;> decide, by decide, by decide⟩
/-- EveryStepKeepsTheStatusConsistent and StepsKeepTheParametersAndTakeOneCommand: a step that runs. -/
theorem witness_step : step (issue ⟨0x00#8, 0#128⟩ running) = .next running := by rfl
/-- BackwardClockEndsTheStage: an UPDATE 5 microseconds before the stage's start. -/
theorem witness_backward :
    let s := State.reset.setChan .a { State.reset.chan .a with stage := .attack, start := 10#32 }
    ({ now := 5 } : Upd).wellFormed = true ∧ ¬Fires { now := 5 } s .a ∧ 5 < (s.chan .a).start.toNat ∧
    (s.chan .a).start.toNat - 5 ≤ 4294967296 - s.config.tCeil ∧ (s.chan .a).stage = .attack := by decide
theorem witness_backward_inv :
    (State.reset.setChan .a { State.reset.chan .a with stage := .attack, start := 10#32 }).Inv :=
  ⟨fun x => by cases x <;> exact ⟨by decide, by decide, by decide, by decide, by decide, by decide, by decide⟩, rfl⟩
/-- CommandsInTheirDomainKeepTheStateSafe: a safe state, an operand at each side of the domain's edge. -/
theorem witness_safe : running.Safe ∧ decode ⟨0x03#8, 0xFF#128⟩ = .ok (.tmap 255) ∧ inDomain (.tmap 255) = true ∧
    decode ⟨0x03#8, 0x100#128⟩ = .ok (.tmap 256) ∧ inDomain (.tmap 256) = false :=
  ⟨⟨witness_running_inv, rfl⟩, rfl, by decide, rfl, by decide⟩
theorem witness_illegal_bits : (0x10#8).extractLsb' 4 4 ≠ 0#4 := by decide
theorem witness_illegal_op : 10 ≤ ((0x0A#8).extractLsb' 0 4).toNat := by decide
theorem witness_only : exec (.tmap 256) State.reset = .next (State.reset.setErrc 2#2) ∧
    exec .nop State.reset = .next State.reset := ⟨rfl, rfl⟩
theorem witness_step_decodes : (issue ⟨0x00#8, 0#128⟩ State.reset).cmds = ⟨0x00#8, 0#128⟩ :: [] ∧
    decode ⟨0x00#8, 0#128⟩ = .ok .nop ∧ decode ⟨0x0A#8, 0#128⟩ = .error .reservedOp := ⟨rfl, rfl, rfl⟩
theorem witness_wait : State.reset.cmds = [] := rfl
theorem witness_upd_frames : (0#128).extractLsb' 0 58 = (0x0400000000000000#128).extractLsb' 0 58 ∧
    (0#128).extractLsb' 64 64 = (0x0400000000000000#128).extractLsb' 64 64 ∧ 0#128 ≠ 0x0400000000000000#128 := by decide
theorem witness_arg_frames : 3 ≤ (0x03#8).toNat ∧
    (0#128).extractLsb' 0 96 = (0x00000001000000000000000000000000#128).extractLsb' 0 96 := by decide
theorem witness_plain_commands : (0x01#8).toNat ≤ 1 := by decide
theorem witness_well_formed : (Instr.clamp (-2147483648) 2147483647 0).wellFormed = true ∧
    (Instr.update { now := 4294967295, potAtt := 255, potDec := 255, potShape := 255, gateA := -2147483648, gateB := 2147483647 }).wellFormed = true := by
  decide
theorem witness_decoded : decode ⟨0x09#8, 0x00000001000000000000000000009C40#128⟩ = .ok (.vconv 40000) := by rfl
theorem witness_frame_byte : (15 : Nat) < 16 := by decide
theorem witness_assembled : assembleLine "TMAP 64".toList = .ok (some (.tmap 64)) := by rfl
theorem witness_pseudo : (4294967295 : Nat) < 4294967296 := by decide

end Sys2Proof.Tests
end

section
/-! The scope's determinism rule (spec/00_scope.md R14): every command has one next state, and a step is the
oldest waiting command, decoded and executed. -/

namespace Sys2Proof.Machine

theorem runCommand_of_decode_ok {c : Command} {i : Instr} (h : decode c = .ok i) (s : State) :
    runCommand c s = exec i s := by
  simp [runCommand, h]

/-- R301: whatever makes a command illegal, the answer is the same. -/
theorem runCommand_of_decode_error {c : Command} {e : DecodeError} (h : decode c = .error e) (s : State) :
    runCommand c s = .next { s with errc := 1#2 } := by
  simp [runCommand, h]

/-- No command, legal or not, ends in a fault or a refusal. -/
theorem runCommand_next (c : Command) (s : State) : ∃ t, runCommand c s = .next t := by
  cases d : decode c with
  | ok i => simpa only [runCommand_of_decode_ok d] using exec_next i s
  | error e => exact ⟨_, runCommand_of_decode_error d s⟩

theorem step_of_cmds_cons {s : State} {c : Command} {rest : List Command} (h : s.cmds = c :: rest) :
    step s = runCommand c { s with cmds := rest } := by
  simp [step, fetch_cons h, State.setCmds]

/-- Settles O39: the command completes (`runCommand_next`), and an outcome is one next state at most. -/
theorem everyCommandHasOneNextState : Obligations.EveryCommandHasOneNextState := by
  intro c s
  obtain ⟨t, ht⟩ := runCommand_next c s
  refine ⟨t, ht, fun t' ht' => ?_⟩
  exact Host.Outcome.next.inj (ht'.symm.trans ht)

/-- Settles O40: the step is `runCommand` on the state without its oldest command, and the decoding says which
of `runCommand`'s two answers it is. -/
theorem stepRunsTheDecodedCommand : Obligations.StepRunsTheDecodedCommand := by
  intro s c rest h
  constructor
  · intro i d
    rw [step_of_cmds_cons h, runCommand_of_decode_ok d]
  · intro e d
    rw [step_of_cmds_cons h, runCommand_of_decode_error d]

end Sys2Proof.Machine
end

section
/-! What decoding says of the operands: every field lies in its range (spec/30_encoding.md R74, R76). -/

namespace Sys2Proof

theorem isS32_toInt (w : Word) : isS32 w.toInt = true := by
  have lo := w.le_toInt
  have hi := w.toInt_lt
  simp only [isS32, decide_eq_true_eq]
  omega

theorem isU32_toNat (w : Word) : isU32 w.toNat = true := by
  have := w.isLt
  simp only [isU32, decide_eq_true_eq]
  omega

theorem isU8_toNat (b : Byte) : isU8 b.toNat = true := by
  have := b.isLt
  simp only [isU8, decide_eq_true_eq]
  omega

theorem decodeUpd_wellFormed (f : Frame) : (decodeUpd f).wellFormed = true := by
  simp only [Upd.wellFormed, decodeUpd, isU32_toNat, isU8_toNat, isS32_toInt, Bool.and_self]

theorem decodeOperands_wellFormed (f : Frame) (op : Op) : (decodeOperands f op).wellFormed = true := by
  cases op with
  | nop | reset => rfl
  | update => exact decodeUpd_wellFormed f
  | tmap | u8q15 | vconv => exact isS32_toInt _
  | qmul => simp only [decodeOperands, Instr.wellFormed, arg0, arg1, isS32_toInt, Bool.and_self]
  | lerp | clamp | shape =>
    simp only [decodeOperands, Instr.wellFormed, arg0, arg1, arg2, isS32_toInt, Bool.and_self]

theorem wellFormed_of_decode_ok {c : Command} {i : Instr} (h : decode c = .ok i) : i.wellFormed = true := by
  rw [(decode_ok h).2]
  exact decodeOperands_wellFormed _ _

theorem Upd.knobs_le_of_wellFormed {u : Upd} (h : u.wellFormed = true) :
    u.potAtt ≤ 255 ∧ u.potDec ≤ 255 ∧ u.potShape ≤ 255 := by
  simp only [Upd.wellFormed, isU8, Bool.and_eq_true, decide_eq_true_eq] at h
  obtain ⟨⟨⟨⟨⟨-, att⟩, dec⟩, shape⟩, -⟩, -⟩ := h
  exact ⟨att, dec, shape⟩

end Sys2Proof
end

section
/-! The invariants of spec/10_state.md R29: what each operation on a channel does to them, and from there
that RESET establishes them and every step keeps them. -/

namespace Sys2Proof.Machine

/-- A duration register is wide enough for every duration of R9. -/
theorem toNat_ofNat_of_le_tCeil (c : Config) {n : Nat} (h : n ≤ c.tCeil) : (BitVec.ofNat 32 n).toNat = n := by
  have := c.tCeil_lt
  rw [BitVec.toNat_ofNat]
  omega

theorem timeMap_register_mem (c : Config) {k : Nat} (h : k ≤ 255) :
    (BitVec.ofNat 32 (timeMap c k)).toNat ∈ Set.Icc c.tFloor c.tCeil := by
  rw [toNat_ofNat_of_le_tCeil c (timeMap_mem c h).2]
  exact timeMap_mem c h

theorem trigIf_dur_mem (c : Config) (fire : Bool) (now : Nat) {k : Nat} (hk : k ≤ 255) {ch : Channel}
    (h : ch.dur.toNat ∈ Set.Icc c.tFloor c.tCeil) :
    (trigIf fire now (timeMap c k) ch).dur.toNat ∈ Set.Icc c.tFloor c.tCeil := by
  cases fire with
  | false => exact h
  | true => exact timeMap_register_mem c hk

theorem adv_dur_mem (c : Config) (now : Nat) {k : Nat} (hk : k ≤ 255) (blend : Int) {ch : Channel}
    (h : ch.dur.toNat ∈ Set.Icc c.tFloor c.tCeil) :
    (adv now (timeMap c k) blend ch).1.dur.toNat ∈ Set.Icc c.tFloor c.tCeil := by
  obtain ⟨-, e⟩ | ⟨-, -, e⟩ | ⟨-, -, e⟩ | ⟨-, -, e⟩ | ⟨-, -, e⟩ := adv_cases now (timeMap c k) blend ch <;> rw [e]
  · exact h
  · exact timeMap_register_mem c hk
  · exact h
  · exact h
  · exact h

/-- Only the Idle branch and the end of Decay answer Idle, and both write level 0 (R174, R176). -/
theorem adv_level_of_idle {now tDec : Nat} {blend : Int} {ch : Channel}
    (h : (adv now tDec blend ch).1.stage = .idle) : (adv now tDec blend ch).1.level = 0#32 := by
  obtain ⟨-, e⟩ | ⟨-, -, e⟩ | ⟨g, -, e⟩ | ⟨-, -, e⟩ | ⟨g, -, e⟩ := adv_cases now tDec blend ch <;> rw [e] at h ⊢
  · exact word_zero
  · cases h
  · cases g.symm.trans h
  · exact word_zero
  · cases g.symm.trans h

theorem Stage.code_cases (g : Stage) : g.code = 0#2 ∨ g.code = 1#2 ∨ g.code = 2#2 := by cases g <;> decide

/-- UPDATE writes each level and output code anew, and each duration from a knob or not at all; so of the
channel's invariants only the duration's range is needed before it. -/
theorem updateState_chan_inv {u : Upd} (wf : u.wellFormed = true) {s : State} {x : ChannelId}
    (h : Channel.Inv s.config (s.chan x)) : Channel.Inv s.config ((updateState u s).chan x) := by
  obtain ⟨att, dec, shape⟩ := Upd.knobs_le_of_wellFormed wf
  have blend := u8ToQ15_le shape
  have level : 0 ≤ (advanced u s x).1.level.toInt ∧ (advanced u s x).1.level.toInt ≤ 32768 :=
    adv_level_mem _ _ (by omega) (by omega) _
  have dur : (advanced u s x).1.dur.toNat ∈ Set.Icc s.config.tFloor s.config.tCeil :=
    adv_dur_mem _ _ dec _ (trigIf_dur_mem _ _ _ att ⟨h.floor_le_dur, h.dur_le_ceil⟩)
  rw [updateState_chan, emitOp_of_mem _ level.1 level.2]
  exact
    { level_nonneg := level.1
      level_le_one := level.2
      idle_level := adv_level_of_idle
      floor_le_dur := dur.1
      dur_le_ceil := dur.2
      stage_code := Stage.code_cases _
      vout_eq := rfl }

theorem updateState_inv {u : Upd} (wf : u.wellFormed = true) {s : State} (h : s.Inv) : (updateState u s).Inv :=
  ⟨fun x => by rw [updateState_config]; exact updateState_chan_inv wf (h.channel x), updateState_pflag u s⟩

/-- R29 says nothing of `RES`, `ERRC` and the waiting commands. -/
theorem State.Inv.of_same_envelope {s t : State} (h : s.Inv) (chan : ∀ x, t.chan x = s.chan x)
    (config : t.config = s.config) (pflag : t.pflag = s.pflag) : t.Inv :=
  ⟨fun x => by rw [config, chan]; exact h.channel x, pflag.trans h.pflag_clear⟩

theorem atReset_channel_inv (c : Config) : Channel.Inv c (Channel.atReset c) := by
  have dur : (Channel.atReset c).dur.toNat = c.tFloor := toNat_ofNat_of_le_tCeil c c.tFloor_le_tCeil
  exact
    { level_nonneg := by simp [Channel.atReset]
      level_le_one := by simp [Channel.atReset]
      idle_level := fun _ => rfl
      floor_le_dur := dur.ge
      dur_le_ceil := dur.trans_le c.tFloor_le_tCeil
      stage_code := Stage.code_cases _
      vout_eq := rfl }

theorem atReset_inv (c : Config) (q : List Command) : (State.atReset c q).Inv :=
  ⟨fun x => by rw [State.atReset_chan]; exact atReset_channel_inv c, rfl⟩

theorem atReset_statusInv (c : Config) (q : List Command) : (State.atReset c q).StatusInv where
  trig_attack x h := by rw [State.atReset_chan] at h; cases h
  eoc_idle x h := by rw [State.atReset_chan] at h; cases h
  pulse_eq := rfl
  errc_ne_three := by simp [State.atReset]

theorem exec_inv {i : Instr} (wf : i.wellFormed = true) {s t : State} (h : s.Inv) (e : exec i s = .next t) :
    t.Inv := by
  obtain ⟨-, rfl⟩ | ⟨-, rfl⟩ | ⟨u, rfl, rfl⟩ | ⟨-, -, -, v, rfl⟩ | ⟨-, -, -, -, rfl⟩ := exec_cases e
  · exact h.of_same_envelope (State.setErrc_chan s · _) rfl rfl
  · exact atReset_inv _ _
  · exact updateState_inv wf h
  · exact h.of_same_envelope (fun x => by cases x <;> rfl) rfl rfl
  · exact h.of_same_envelope (State.setErrc_chan s · _) rfl rfl

/-- Settles O43: a step waits, executes a decoded command, whose knobs therefore fit their fields, or writes
`ERRC` alone. -/
theorem everyStepKeepsTheInvariants : Obligations.EveryStepKeepsTheInvariants := by
  intro s h
  obtain ⟨-, e⟩ | ⟨c, rest, i, -, d, e⟩ | ⟨c, rest, -, -, -, e⟩ := step_cases s
  · exact ⟨s, e, h⟩
  · have taken : (s.setCmds rest).Inv := h.of_same_envelope (State.setCmds_chan s · rest) rfl rfl
    obtain ⟨t, ht⟩ := exec_next i (s.setCmds rest)
    exact ⟨t, e.trans ht, exec_inv (wellFormed_of_decode_ok d) taken ht⟩
  · exact ⟨_, e, h.of_same_envelope (fun x => by cases x <;> rfl) rfl rfl⟩

/-- Settles O42: both states are `State.atReset` of some parameters and waiting commands. -/
theorem resetEstablishesTheInvariants : Obligations.ResetEstablishesTheInvariants :=
  ⟨atReset_inv _ _, atReset_statusInv _ _, fun _ => ⟨_, rfl, atReset_inv _ _, atReset_statusInv _ _⟩⟩

end Sys2Proof.Machine
end

section
/-! Who reads and who writes a channel: an UPDATE's trigger condition, the channels' independence
(spec/10_state.md R28), the commands that leave the envelope alone (R35) and the reset values (R40). -/

namespace Sys2Proof.Machine

/-- R200 to R202: the trigger decision is the disjunction of the three sources. -/
theorem trigOf_iff_fires (u : Upd) (s : State) (x : ChannelId) : trigOf u s x = true ↔ Fires u s x := by
  simp [trigOf, trigDecision, gateEdge, gateHigh, btnEdge, or_assoc]

theorem updateState_trig_iff_fires (u : Upd) (s : State) (x : ChannelId) :
    ((updateState u s).chan x).trig = true ↔ Fires u s x := by
  rw [updateState_chan]
  exact trigOf_iff_fires u s x

/-- With all latches clear, as after a RESET, a source that is high is a source that rises. -/
theorem fires_atReset {u : Upd} {c : Config} {x : ChannelId} (q : List Command)
    (h : c.gateTh < u.gate x ∨ u.btn = true) : Fires u (State.atReset c q) x :=
  h.imp (fun gate => ⟨gate, by rw [State.atReset_chan]; rfl⟩) (fun btn => .inl ⟨btn, rfl⟩)

/-- Settles O27: the trigger decision, the registers after it and ADV's answer agree one after the other, and
with the parameters they are all that `updateState_chan` reads. -/
theorem channelsNeverReadEachOther : Obligations.ChannelsNeverReadEachOther := by
  intro u u' s s' t t' x chan bwp config gate now att dec shape btn pedge e e'
  cases e
  cases e'
  have fire : trigOf u s x = trigOf u' s' x := by simp only [trigOf, chan, bwp, config, gate, btn, pedge]
  have start : triggered u s x = triggered u' s' x := by simp only [triggered, fire, chan, config, gate, now, att]
  have moved : advanced u s x = advanced u' s' x := by simp only [advanced, start, config, now, dec, shape]
  rw [updateState_chan, updateState_chan, fire, moved, config]

/-- Settles O37, by the ways a command can change the state. -/
theorem onlyUpdateAndResetTouchTheEnvelope : Obligations.OnlyUpdateAndResetTouchTheEnvelope := by
  intro i s t e notReset notUpdate
  have noError : (0#2 : BitVec 2) ≠ 2#2 := by decide
  obtain ⟨-, rfl⟩ | ⟨reset, -⟩ | ⟨u, update, -⟩ | ⟨notNop, -, -, v, rfl⟩ | ⟨notNop, -, -, notVconv, rfl⟩ :=
    exec_cases e
  · exact ⟨rfl, .inl rfl, fun _ => rfl, fun two => absurd two noError⟩
  · exact absurd reset notReset
  · exact absurd update (notUpdate u)
  · exact ⟨rfl, .inl rfl, fun h => absurd h (not_or.mpr ⟨notNop, noError⟩), fun two => absurd two noError⟩
  · exact ⟨rfl, .inr rfl, fun _ => rfl, fun _ => ⟨notNop, notVconv⟩⟩

/-- Settles O1: both states are `State.atReset` of their parameters and waiting commands, and RESET reads
nothing else. -/
theorem resetGivesEveryRegisterItsValue : Obligations.ResetGivesEveryRegisterItsValue := by
  refine ⟨decode_of_op .reset, ⟨rfl, rfl, rfl, rfl, rfl, rfl, rfl, fun x => ?_⟩, fun s => ?_⟩
  · rw [State.reset, State.atReset_chan]
    decide
  · refine ⟨State.atReset s.config s.cmds, rfl, rfl, rfl, rfl, rfl, rfl, rfl, rfl, rfl, (State.atReset_chan · _ _), ?_⟩
    intro u x high
    exact ⟨_, exec_update _ _, (updateState_trig_iff_fires _ _ _).mpr (fires_atReset _ high)⟩

end Sys2Proof.Machine
end

section
/-! Commands as bytes (spec/20_memory.md R52): the frame is little-endian, and a reader of the bytes finds the
command again. -/

namespace Sys2Proof

@[simp] theorem frameBytes_length (f : Frame) : (frameBytes f).length = 16 := by simp [frameBytes]

theorem getElem?_frameBytes (f : Frame) {k : Nat} (h : k < 16) :
    (frameBytes f)[k]? = some (f.extractLsb' (8 * k) 8) := by
  simp [frameBytes, h]

/-- A byte added at the end is the most significant one. -/
theorem bytesValue_concat (l : List Byte) (b : Byte) :
    bytesValue (l ++ [b]) = bytesValue l + 256 ^ l.length * b.toNat := by
  induction l with
  | nil => simp [bytesValue]
  | cons a l ih =>
    simp only [List.cons_append, bytesValue, ih, List.length_cons, pow_succ]
    ring

/-- The low `n` bytes of a frame are its number modulo `256 ^ n`: byte `n` is the next digit in base 256. -/
theorem bytesValue_lowBytes (f : Frame) (n : Nat) :
    bytesValue ((List.range n).map fun k => f.extractLsb' (8 * k) 8) = f.toNat % 256 ^ n := by
  induction n with
  | zero => simp [bytesValue, Nat.mod_one]
  | succ n ih =>
    have digit : (f.extractLsb' (8 * n) 8).toNat = f.toNat / 256 ^ n % 256 := by
      simp only [BitVec.extractLsb'_toNat, Nat.shiftRight_eq_div_pow, pow_mul, Nat.reducePow]
    rw [List.range_succ, List.map_append, List.map_singleton, bytesValue_concat, ih, digit, List.length_map,
      List.length_range, pow_succ, Nat.mod_mul]

theorem bytesValue_frameBytes (f : Frame) : bytesValue (frameBytes f) = f.toNat :=
  (bytesValue_lowBytes f 16).trans (Nat.mod_eq_of_lt f.isLt)

theorem commandOfBytes_commandBytes_append (c : Command) (rest : List Byte) :
    commandOfBytes (commandBytes c ++ rest) = some (c, rest) := by
  have enough : ¬(frameBytes c.frame ++ rest).length < 16 := by simp
  have front : (frameBytes c.frame ++ rest).take 16 = frameBytes c.frame := List.take_left' (frameBytes_length _)
  have back : (frameBytes c.frame ++ rest).drop 16 = rest := List.drop_left' (frameBytes_length _)
  simp only [commandBytes, List.cons_append, commandOfBytes, if_neg enough, front, back, bytesValue_frameBytes,
    BitVec.ofNat_toNat, BitVec.setWidth_eq]

/-- Settles O52: the sixteen bytes of the frame are its digits in base 256, least significant first. -/
theorem commandBytesReadBack : Obligations.CommandBytesReadBack :=
  ⟨commandOfBytes_commandBytes_append, fun f _ => getElem?_frameBytes f⟩

end Sys2Proof
end

section
/-! The model's queue of waiting commands (notes/assumptions/2.md): a step with none, and a step over a
command placed by `withFetchWord`. -/

namespace Sys2Proof

/-- An 8-bit table word is the command byte alone. -/
theorem commandOfTableWord_eight (w : Nat) : commandOfTableWord 8 w = ⟨BitVec.ofNat 8 w, 0#128⟩ := by
  have byte : BitVec.ofNat 8 (w % 2 ^ 8) = BitVec.ofNat 8 w := by
    apply BitVec.eq_of_toNat_eq
    simp
  have frame : w % 2 ^ 8 / 256 = 0 := by omega
  rw [commandOfTableWord, byte, frame]

end Sys2Proof

namespace Sys2Proof.Machine

theorem step_of_cmds_nil {s : State} (h : s.cmds = []) : step s = .next s := by
  simp [step, fetch_nil h, idleStep]

/-- The command placed first is the one the step takes, and what is left is the state as it was. -/
theorem step_withFetchWord (s : State) (nbits w : Nat) :
    step (s.withFetchWord nbits w) = runCommand (commandOfTableWord nbits w) s :=
  step_of_cmds_cons (issueNext_cmds _ s)

/-- Settles O41: a step over an empty queue is the idle step, and a placed 8-bit word is its command byte with a
zero frame. -/
theorem stepWaitsForACommand : Obligations.StepWaitsForACommand := by
  refine ⟨fun _ => step_of_cmds_nil, fun s w => ?_⟩
  rw [step_withFetchWord, commandOfTableWord_eight]

end Sys2Proof.Machine
end

section
/-! Fields of a frame (spec/30_encoding.md R74, R76): a field written into a frame reads back, and frames that
agree on a range of bits agree on every field inside it. -/

namespace Sys2Proof

theorem toInt_ofInt_of_isS32 {v : Int} (h : isS32 v = true) : (BitVec.ofInt 32 v).toInt = v := by
  obtain ⟨lo, hi⟩ := of_decide_eq_true h
  exact Machine.word_toInt lo hi

theorem toNat_ofNat_of_isU32 {v : Nat} (h : isU32 v = true) : (BitVec.ofNat 32 v).toNat = v :=
  Nat.mod_eq_of_lt (of_decide_eq_true h)

theorem toNat_ofNat_of_isU8 {v : Nat} (h : isU8 v = true) : (BitVec.ofNat 8 v).toNat = v :=
  Nat.mod_eq_of_lt (Nat.lt_succ_of_le (of_decide_eq_true h))

theorem arg0_argFrame {a0 : Int} (h : isS32 a0 = true) (a1 a2 : Int) : arg0 (argFrame a0 a1 a2) = a0 := by
  simp only [arg0, argFrame, BitVec.extractLsb'_append_eq_right, toInt_ofInt_of_isS32 h]

theorem arg1_argFrame {a1 : Int} (h : isS32 a1 = true) (a0 a2 : Int) : arg1 (argFrame a0 a1 a2) = a1 := by
  simp only [arg1, argFrame, BitVec.extractLsb'_append_eq_of_le, le_refl, Nat.sub_self,
    BitVec.extractLsb'_append_eq_right, toInt_ofInt_of_isS32 h]

theorem arg2_argFrame {a2 : Int} (h : isS32 a2 = true) (a0 a1 : Int) : arg2 (argFrame a0 a1 a2) = a2 := by
  simp only [arg2, argFrame, BitVec.extractLsb'_append_eq_of_le, Nat.reduceLeDiff, Nat.reduceSub,
    BitVec.extractLsb'_append_eq_right, toInt_ofInt_of_isS32 h]

theorem decodeUpd_updFrame {u : Upd} (wf : u.wellFormed = true) : decodeUpd (updFrame u) = u := by
  simp only [Upd.wellFormed, Bool.and_eq_true] at wf
  obtain ⟨⟨⟨⟨⟨now, att⟩, dec⟩, shape⟩, gateA⟩, gateB⟩ := wf
  simp only [decodeUpd, updFrame, BitVec.extractLsb'_append_eq_of_le, BitVec.extractLsb'_append_eq_right,
    BitVec.extractLsb'_eq_self, BitVec.getLsbD_append, BitVec.getLsbD_ofBool, Nat.reduceLeDiff, Nat.reduceSub,
    Nat.reduceLT, if_true, if_false, decide_true, Bool.true_and, toNat_ofNat_of_isU32 now, toNat_ofNat_of_isU8 att,
    toNat_ofNat_of_isU8 dec, toNat_ofNat_of_isU8 shape, toInt_ofInt_of_isS32 gateA, toInt_ofInt_of_isS32 gateB]

theorem getLsbD_congr {f g : Frame} {start len : Nat} (h : f.extractLsb' start len = g.extractLsb' start len)
    {i : Nat} (lo : start ≤ i) (hi : i < start + len) : f.getLsbD i = g.getLsbD i := by
  have bit := congrArg (·.getLsbD (i - start)) h
  have inside : i - start < len := by omega
  simpa only [BitVec.getLsbD_extractLsb', inside, Nat.add_sub_cancel' lo, decide_true, Bool.true_and] using bit

theorem extractLsb'_congr {f g : Frame} {start len : Nat} (h : f.extractLsb' start len = g.extractLsb' start len)
    {start' len' : Nat} (lo : start ≤ start') (hi : start' + len' ≤ start + len) :
    f.extractLsb' start' len' = g.extractLsb' start' len' := by
  apply BitVec.eq_of_getLsbD_eq
  intro i hi'
  rw [BitVec.getLsbD_extractLsb', BitVec.getLsbD_extractLsb', getLsbD_congr h (by omega) (by omega)]

theorem decodeUpd_congr {f g : Frame} (low : f.extractLsb' 0 58 = g.extractLsb' 0 58)
    (high : f.extractLsb' 64 64 = g.extractLsb' 64 64) : decodeUpd f = decodeUpd g := by
  simp only [decodeUpd, extractLsb'_congr low, extractLsb'_congr high, getLsbD_congr low, Nat.reduceLeDiff,
    Nat.reduceAdd, Nat.reduceLT, Nat.zero_le, le_refl]

/-- Every operation but UPDATE reads its arguments at most, and the last of them ends at bit 95 (R76, R77). -/
theorem decodeOperands_congr_args {f g : Frame} (low : f.extractLsb' 0 96 = g.extractLsb' 0 96) {op : Op}
    (notUpdate : op ≠ .update) : decodeOperands f op = decodeOperands g op := by
  have h0 : arg0 f = arg0 g := congrArg BitVec.toInt (extractLsb'_congr low (by decide) (by decide))
  have h1 : arg1 f = arg1 g := congrArg BitVec.toInt (extractLsb'_congr low (by decide) (by decide))
  have h2 : arg2 f = arg2 g := congrArg BitVec.toInt (extractLsb'_congr low (by decide) (by decide))
  cases op with
  | update => exact absurd rfl notUpdate
  | _ => simp only [decodeOperands, h0, h1, h2]

end Sys2Proof
end

section
/-! The decoder against the encoder (spec/30_encoding.md R70 to R77): which bytes decode, to which operation,
and that encoding inverts decoding. -/

namespace Sys2Proof

theorem decodeOperands_encodeFrame {i : Instr} (wf : i.wellFormed = true) :
    decodeOperands (encodeFrame i) i.op = i := by
  cases i with
  | nop | reset => rfl
  | update u => exact congrArg Instr.update (decodeUpd_updFrame wf)
  | tmap a0 | u8q15 a0 | vconv a0 => simp only [decodeOperands, Instr.op, encodeFrame, arg0_argFrame wf]
  | qmul a0 a1 =>
    simp only [Instr.wellFormed, Bool.and_eq_true] at wf
    obtain ⟨h0, h1⟩ := wf
    simp only [decodeOperands, Instr.op, encodeFrame, arg0_argFrame h0, arg1_argFrame h1]
  | lerp a0 a1 a2 | clamp a0 a1 a2 | shape a0 a1 a2 =>
    simp only [Instr.wellFormed, Bool.and_eq_true] at wf
    obtain ⟨⟨h0, h1⟩, h2⟩ := wf
    simp only [decodeOperands, Instr.op, encodeFrame, arg0_argFrame h0, arg1_argFrame h1, arg2_argFrame h2]

/-- Settles O49: the encoding carries the operation's byte, and the operation reads its operands back. -/
theorem decodeOfEncodeIsTheInstruction : Obligations.DecodeOfEncodeIsTheInstruction := fun i wf =>
  (decode_of_op i.op (encodeFrame i)).trans (congrArg Except.ok (decodeOperands_encodeFrame wf))

/-- Settles O50: what decodes is well formed, so its encoding decodes back to it. -/
theorem decodedInstructionsAreWellFormed : Obligations.DecodedInstructionsAreWellFormed := by
  intro c i h
  have wf := wellFormed_of_decode_ok h
  exact ⟨wf, (decode_ok h).1.symm, (decodeOfEncodeIsTheInstruction i wf).trans h.symm⟩

theorem opOfCode_isSome_iff (n : BitVec 4) : (opOfCode n).isSome = true ↔ n.toNat ≤ 9 := by
  revert n
  decide

/-- The legal bytes are the rows of the opcode map (R71 to R73). -/
theorem exists_op_iff_legal (cmd : Byte) :
    (∃ op : Op, cmd = 0x0#4 ++ op.code) ↔ cmd.extractLsb' 4 4 = 0#4 ∧ (cmd.extractLsb' 0 4).toNat ≤ 9 := by
  constructor
  · rintro ⟨op, rfl⟩
    exact ⟨rsvField_append _, by cases op <;> decide⟩
  · rintro ⟨rsv, sel⟩
    obtain ⟨op, found⟩ := Option.isSome_iff_exists.mp ((opOfCode_isSome_iff (opField cmd)).mpr sel)
    exact ⟨op, code_of_opOfCode found ▸ byte_eq_append rsv⟩

theorem exists_decode_ok_iff (c : Command) : (∃ i, decode c = .ok i) ↔ ∃ op : Op, c.cmd = 0x0#4 ++ op.code := by
  constructor
  · rintro ⟨i, h⟩
    exact ⟨i.op, (decode_ok h).1⟩
  · rintro ⟨op, h⟩
    obtain ⟨cmd, f⟩ := c
    subst h
    exact ⟨_, decode_of_op op f⟩

theorem decode_error_of_not_ok {c : Command} (h : ¬∃ i, decode c = .ok i) : ∃ e, decode c = .error e := by
  cases d : decode c with
  | ok i => exact absurd ⟨i, d⟩ h
  | error e => exact ⟨e, rfl⟩

theorem Op.byte_injective {op op' : Op} (h : (0x0#4 ++ op.code : Byte) = 0x0#4 ++ op'.code) : op = op' := by
  have sel : op.code = op'.code := by simpa only [opField_append] using congrArg opField h
  exact Option.some.inj (by rw [← opOfCode_code, sel, opOfCode_code])

theorem cmd_eq_iff_op {c : Command} {i : Instr} (h : decode c = .ok i) (op : Op) :
    c.cmd = 0x0#4 ++ op.code ↔ i.op = op := by
  rw [(decode_ok h).1]
  exact ⟨Op.byte_injective, fun e => by rw [e]⟩

/-- Settles O46: the legal bytes are those of the ten operations, and an operation is known by its byte. -/
theorem opcodeMapDecidesTheOperation : Obligations.OpcodeMapDecidesTheOperation := by
  refine ⟨fun c => (exists_decode_ok_iff c).trans (exists_op_iff_legal c.cmd), fun c i h => ?_⟩
  have byte := cmd_eq_iff_op h
  refine ⟨(byte .nop).trans ?_, (byte .reset).trans ?_, (byte .update).trans ?_, (byte .tmap).trans ?_,
    (byte .u8q15).trans ?_, (byte .qmul).trans ?_, (byte .lerp).trans ?_, (byte .clamp).trans ?_,
    (byte .shape).trans ?_, (byte .vconv).trans ?_⟩ <;> cases i <;> simp [Instr.op]

/-- Settles O47: the fields are `decodeUpd`'s, and none of them reaches bits 58 to 63. -/
theorem updFrameFieldsDecode : Obligations.UpdFrameFieldsDecode :=
  ⟨decode_of_op .update, fun f g low high => by
    have operands : decodeOperands f .update = decodeOperands g .update :=
      congrArg Instr.update (decodeUpd_congr low high)
    exact (decode_of_op .update f).trans ((congrArg Except.ok operands).trans (decode_of_op .update g).symm)⟩

/-- Two frames that give an operation the same operands decode alike; an illegal byte reads no frame (R304). -/
theorem decode_congr {cmd : Byte} {f g : Frame}
    (h : ∀ op : Op, cmd = 0x0#4 ++ op.code → decodeOperands f op = decodeOperands g op) :
    decode ⟨cmd, f⟩ = decode ⟨cmd, g⟩ := by
  simp only [decode]
  split
  · rfl
  · next rsv =>
    split
    · next op found => rw [h op (code_of_opOfCode found ▸ byte_eq_append (not_not.mp rsv))]
    · rfl

/-- Settles O48: the byte says which operation reads the frame, and none reads the bits in which they differ. -/
theorem ignoredFrameBitsChangeNothing : Obligations.IgnoredFrameBitsChangeNothing := by
  constructor
  · rintro cmd f g arg low
    refine decode_congr fun op byte => decodeOperands_congr_args low ?_
    rintro rfl
    subst byte
    exact absurd arg (by decide)
  · rintro cmd f g plain
    refine decode_congr fun op byte => ?_
    subst byte
    cases op with
    | nop | reset => rfl
    | _ => exact absurd plain (by decide)

theorem encode_update (u : Upd) : encode (.update u) = ⟨0x0#4 ++ Op.update.code, updFrame u⟩ := rfl

/-- A frame as a number: its low word, and what stands above it times `2 ^ 32`. -/
theorem append_ofNat_eq_ofNat (high : BitVec 96) {t : Nat} (ht : t < 4294967296) :
    high ++ BitVec.ofNat 32 t = BitVec.ofNat 128 (t + high.toNat * 2 ^ 32) := by
  have small := high.isLt
  apply BitVec.eq_of_toNat_eq
  rw [BitVec.toNat_append, ← Nat.shiftLeft_add_eq_or_of_lt (BitVec.isLt _), Nat.shiftLeft_eq, BitVec.toNat_ofNat,
    BitVec.toNat_ofNat]
  omega

/-- Settles O55: above the time in the low word stands nothing, or `PEDGE` alone, which is bit 25 there. -/
theorem pseudoInstructionsAreUpdates : Obligations.PseudoInstructionsAreUpdates := by
  intro t ht
  have poll : updFrame { now := t } = BitVec.ofNat 128 t :=
    (append_ofNat_eq_ofNat (0#32 ++ 0#32 ++ 0#6 ++ 0#1 ++ 0#1 ++ 0#8 ++ 0#8 ++ 0#8) ht).trans (by simp)
  have trigall : updFrame { now := t, pedge := true } = BitVec.ofNat 128 (t + 2 ^ 57) :=
    (append_ofNat_eq_ofNat (0#32 ++ 0#32 ++ 0#6 ++ 1#1 ++ 0#1 ++ 0#8 ++ 0#8 ++ 0#8) ht).trans (by simp)
  exact ⟨rfl, rfl, (encode_update _).trans (congrArg (Command.mk 0x02#8) poll),
    (encode_update _).trans (congrArg (Command.mk 0x02#8) trigall)⟩

end Sys2Proof

namespace Sys2Proof.Machine

/-- Settles O35: an illegal byte is no row of the opcode map, so the command is rejected. -/
theorem illegalCommandsOnlyWriteTheErrorCode : Obligations.IllegalCommandsOnlyWriteTheErrorCode := by
  intro cmd f s illegal
  have noOp : ¬∃ i, decode ⟨cmd, f⟩ = .ok i := by
    rw [exists_decode_ok_iff, exists_op_iff_legal]
    rintro ⟨rsv, sel⟩
    exact illegal.elim (absurd rsv) (Nat.not_le_of_lt (Nat.lt_succ_of_le sel))
  obtain ⟨e, he⟩ := decode_error_of_not_ok noOp
  exact runCommand_of_decode_error he s

end Sys2Proof.Machine
end

section
/-! The output frame (spec/30_encoding.md R80). -/

namespace Sys2Proof.Machine

/-- Under R29 a level is at most `ONE = 2^15`, so its low sixteen bits are the whole of it (R80). -/
theorem toNat_level_field {c : Config} {ch : Channel} (h : Channel.Inv c ch) :
    ((ch.level.extractLsb' 0 16).toNat : Int) = ch.level.toInt := by
  have nonneg := h.level_nonneg
  have le_one := h.level_le_one
  have value := ch.level.toInt_eq_toNat_cond
  rw [BitVec.extractLsb'_toNat, Nat.shiftRight_zero]
  split at value <;> omega

/-- Settles O53: each field is read past the ones below it, and R29 bounds the levels. -/
theorem outputFrameShowsTheRegisters : Obligations.OutputFrameShowsTheRegisters := by
  intro s
  have levelA : (outFrame s).extractLsb' 96 16 = s.chA.level.extractLsb' 0 16 := by
    simp only [outFrame, BitVec.extractLsb'_append_eq_of_le, Nat.reduceLeDiff, Nat.reduceSub,
      BitVec.extractLsb'_append_eq_right]
  have levelB : (outFrame s).extractLsb' 112 16 = s.chB.level.extractLsb' 0 16 := by
    simp only [outFrame, BitVec.extractLsb'_append_eq_of_le, Nat.reduceLeDiff, Nat.reduceSub,
      BitVec.extractLsb'_eq_self]
  refine ⟨?_, ?_, ?_, ?_, ?_, ?_, ?_, ?_, ?_, ?_, levelA, levelB, fun inv => ?levels⟩
  case levels =>
    rw [levelA, levelB]
    exact ⟨toNat_level_field (inv.channel .a), toNat_level_field (inv.channel .b)⟩
  all_goals
    simp only [outFrame, BitVec.extractLsb'_append_eq_of_le, BitVec.extractLsb'_append_eq_right,
      BitVec.getLsbD_append, BitVec.getLsbD_ofBool, Nat.reduceLeDiff, Nat.reduceSub, Nat.reduceLT, if_true, if_false,
      decide_true, Bool.true_and]

end Sys2Proof.Machine
end

section
/-! The assembler (spec/30_encoding.md R82, R83): every part of it that answers a number answers one that fits
its field, so an instruction it answers is well formed. -/

namespace Sys2Proof.Machine

section
variable {ε α β : Type}

theorem ok_of_bind_eq_ok {x : Except ε α} {f : α → Except ε β} {b : β} (h : (x >>= f) = .ok b) :
    ∃ a, x = .ok a ∧ f a = .ok b := by
  cases x with
  | ok a => exact ⟨a, rfl, h⟩
  | error e => cases h

theorem ok_of_map_eq_ok {x : Except ε α} {f : α → β} {b : β} (h : x.map f = .ok b) : ∃ a, x = .ok a ∧ f a = b := by
  cases x with
  | ok a => exact ⟨a, rfl, Except.ok.inj h⟩
  | error e => cases h

/-- What both branches guarantee of their answer, a test between them guarantees. -/
theorem forall_ok_ite {c : Prop} [Decidable c] {x y : Except ε α} {p : α → Prop} (hx : ∀ a, x = .ok a → p a)
    (hy : ∀ a, y = .ok a → p a) : ∀ a, (if c then x else y) = .ok a → p a := by
  split
  · exact hx
  · exact hy

end

theorem requireRange_ok {ok : Bool} {v w : Int} (h : requireRange ok v = .ok w) : ok = true ∧ v = w := by
  cases ok with
  | true => exact ⟨rfl, Except.ok.inj h⟩
  | false => cases h

theorem isS32_of_s32Operand {l : List Char} {v : Int} (h : s32Operand l = .ok v) : isS32 v = true := by
  obtain ⟨w, -, h⟩ := ok_of_bind_eq_ok h
  obtain ⟨range, rfl⟩ := requireRange_ok h
  exact range

theorem isS32_of_evalOperands {ws : List (List Char)} {args : List Int} (h : evalOperands ws = .ok args) :
    ∀ v ∈ args, isS32 v = true := by
  induction ws generalizing args with
  | nil =>
    cases h
    simp
  | cons w ws ih =>
    obtain ⟨v, first, h⟩ := ok_of_bind_eq_ok h
    obtain ⟨rest, others, h⟩ := ok_of_bind_eq_ok h
    cases h
    exact List.forall_mem_cons.mpr ⟨isS32_of_s32Operand first, ih others⟩

theorem evalInstr_wellFormed {op : Op} {args : List Int} {i : Instr} (h : evalInstr op args = some i)
    (range : ∀ v ∈ args, isS32 v = true) : i.wellFormed = true := by
  unfold evalInstr at h
  split at h <;> cases h <;> simpa [Instr.wellFormed, and_assoc] using range

theorem assembleEval_wellFormed {op : Op} {text : List Char} {i : Instr} (h : assembleEval op text = .ok i) :
    i.wellFormed = true := by
  obtain ⟨args, operands, h⟩ := ok_of_bind_eq_ok h
  split at h
  · next found =>
    cases h
    exact evalInstr_wellFormed found (isS32_of_evalOperands operands)
  · cases h

theorem natField_ok {fields : List (List Char × List Char)} {key : String} {ok : Nat → Bool} {n : Nat}
    (h : natField fields key ok = .ok n) (zero : ok 0 = true) : ok n = true := by
  unfold natField at h
  split at h
  · cases h
    exact zero
  · obtain ⟨v, -, h⟩ := ok_of_bind_eq_ok h
    obtain ⟨w, inRange, h⟩ := ok_of_bind_eq_ok h
    obtain ⟨range, rfl⟩ := requireRange_ok inRange
    cases h
    exact (Bool.and_eq_true_iff.mp range).2

theorem isS32_of_gateField {fields : List (List Char × List Char)} {key : String} {v : Int}
    (h : gateField fields key = .ok v) : isS32 v = true := by
  unfold gateField at h
  split at h
  · cases h
    rfl
  · obtain ⟨w, -, h⟩ := ok_of_bind_eq_ok h
    obtain ⟨range, rfl⟩ := requireRange_ok h
    exact range

theorem updateOfFields_wellFormed {fields : List (List Char × List Char)} {u : Upd}
    (h : updateOfFields fields = .ok u) : u.wellFormed = true := by
  unfold updateOfFields at h
  split at h
  · cases h
  · obtain ⟨now, hNow, h⟩ := ok_of_bind_eq_ok h
    obtain ⟨att, hAtt, h⟩ := ok_of_bind_eq_ok h
    obtain ⟨dec, hDec, h⟩ := ok_of_bind_eq_ok h
    obtain ⟨shape, hShape, h⟩ := ok_of_bind_eq_ok h
    obtain ⟨btn, -, h⟩ := ok_of_bind_eq_ok h
    obtain ⟨pedge, -, h⟩ := ok_of_bind_eq_ok h
    obtain ⟨ga, hGa, h⟩ := ok_of_bind_eq_ok h
    obtain ⟨gb, hGb, h⟩ := ok_of_bind_eq_ok h
    cases h
    simp only [Upd.wellFormed, natField_ok hNow rfl, natField_ok hAtt rfl, natField_ok hDec rfl,
      natField_ok hShape rfl, isS32_of_gateField hGa, isS32_of_gateField hGb, Bool.and_self]

theorem assembleFields_wellFormed {keys : List (List Char)} {text : List Char} {u : Upd}
    (h : assembleFields keys text = .ok u) : u.wellFormed = true := by
  obtain ⟨fields, -, h⟩ := ok_of_bind_eq_ok h
  exact updateOfFields_wellFormed h

/-- What POLL and TRIGALL keep of their fields. -/
theorem timeOnly_wellFormed {u : Upd} (h : u.wellFormed = true) (pedge : Bool) :
    ({ now := u.now, pedge := pedge } : Upd).wellFormed = true := by
  simp only [Upd.wellFormed, Bool.and_eq_true] at h ⊢
  obtain ⟨⟨⟨⟨⟨now, -⟩, -⟩, -⟩, -⟩, -⟩ := h
  exact ⟨⟨⟨⟨⟨now, rfl⟩, rfl⟩, rfl⟩, rfl⟩, rfl⟩

theorem assemblePlain_wellFormed {i : Instr} (wf : i.wellFormed = true) (text : List Char) :
    ∀ j, assemblePlain i text = .ok j → j.wellFormed = true :=
  forall_ok_ite (fun _ h => Except.ok.inj h ▸ wf) nofun

theorem map_assembleFields_wellFormed {keys : List (List Char)} {text : List Char} {f : Upd → Instr}
    (keeps : ∀ u : Upd, u.wellFormed = true → (f u).wellFormed = true) :
    ∀ i, (assembleFields keys text).map f = .ok i → i.wellFormed = true := by
  intro i h
  obtain ⟨u, fields, rfl⟩ := ok_of_map_eq_ok h
  exact keeps u (assembleFields_wellFormed fields)

/-- The branches in the definition's order: NOP, RESET, UPDATE, POLL, TRIGALL, the seven evaluation commands. -/
theorem assembleMnemonic_wellFormed (name text : List Char) :
    ∀ i, assembleMnemonic name text = .ok i → i.wellFormed = true := by
  have eval : ∀ op i, assembleEval op text = .ok i → i.wellFormed = true := fun _ _ => assembleEval_wellFormed
  exact forall_ok_ite (assemblePlain_wellFormed rfl text) <|
    forall_ok_ite (assemblePlain_wellFormed rfl text) <|
    forall_ok_ite (map_assembleFields_wellFormed fun _ wf => wf) <|
    forall_ok_ite (map_assembleFields_wellFormed fun _ wf => timeOnly_wellFormed wf false) <|
    forall_ok_ite (map_assembleFields_wellFormed fun _ wf => timeOnly_wellFormed wf true) <|
    forall_ok_ite (eval .tmap) <| forall_ok_ite (eval .u8q15) <| forall_ok_ite (eval .qmul) <|
    forall_ok_ite (eval .lerp) <| forall_ok_ite (eval .clamp) <| forall_ok_ite (eval .shape) <|
    forall_ok_ite (eval .vconv) nofun

theorem assembleLine_wellFormed {line : List Char} {i : Instr} (h : assembleLine line = .ok (some i)) :
    i.wellFormed = true := by
  simp only [assembleLine] at h
  split at h
  · cases h
  · obtain ⟨j, mnemonic, same⟩ := ok_of_map_eq_ok h
    cases same
    exact assembleMnemonic_wellFormed _ _ _ mnemonic

/-- Settles O54: what assembles is well formed, and by O49 its encoding decodes to it. -/
theorem assembledCommandsAreWellFormed : Obligations.AssembledCommandsAreWellFormed := by
  intro line i h
  have wf := assembleLine_wellFormed h
  exact ⟨wf, decodeOfEncodeIsTheInstruction i wf⟩

end Sys2Proof.Machine
end

section
/-! The fixed-point utilities (spec/40_fixed_point.md): the values of `q15_mul`, `lerp`, `clamp` and
`u8_to_q15`, the operand domains as propositions, and from both what QMUL, LERP, CLAMP and U8Q15 do. -/

namespace Sys2Proof.Machine

/-- R100: `>> 15` rounds down. -/
theorem q15Mul_floor (a b : Int) : q15Mul a b * 32768 ≤ a * b ∧ a * b < (q15Mul a b + 1) * 32768 := by
  unfold q15Mul
  omega

@[simp] theorem q15Mul_one_left (x : Int) : q15Mul 32768 x = x := Int.mul_ediv_cancel_left x (by decide)

@[simp] theorem q15Mul_one_right (x : Int) : q15Mul x 32768 = x := Int.mul_ediv_cancel x (by decide)

@[simp] theorem q15Mul_zero_right (x : Int) : q15Mul x 0 = 0 := by simp [q15Mul]

@[simp] theorem lerp_zero (a b : Int) : lerp a b 0 = a := by simp [lerp]

@[simp] theorem lerp_one (a b : Int) : lerp a b 32768 = b := by simp [lerp]

/-- R100: two factors in `[-ONE, ONE]` have a product of magnitude at most `ONE * ONE = 2^30`. -/
theorem abs_mul_le_of_signedUnit {a b : Int} (ha : |a| ≤ 32768) (hb : |b| ≤ 32768) : |a * b| ≤ 1073741824 :=
  calc |a * b| = |a| * |b| := abs_mul a b
    _ ≤ 32768 * 32768 := mul_le_mul ha hb (abs_nonneg b) (by decide)
    _ = 1073741824 := by decide

/-- A product of magnitude at most `2^30` over `2^15` has magnitude at most `ONE`. -/
theorem q15Mul_mem {a b : Int} (ha : |a| ≤ 32768) (hb : |b| ≤ 32768) :
    -32768 ≤ q15Mul a b ∧ q15Mul a b ≤ 32768 := by
  have product := abs_le.mp (abs_mul_le_of_signedUnit ha hb)
  have floor := q15Mul_floor a b
  omega

/-- R103: between 0 and `ONE`, `lerp` stays between its ends, whichever is the lower. -/
theorem lerp_mem (a b : Int) {t : Int} (ht : 0 ≤ t) (ht' : t ≤ 32768) :
    min a b ≤ lerp a b t ∧ lerp a b t ≤ max a b := by
  obtain h | h := le_total a b
  · rw [min_eq_left h, max_eq_right h]
    exact lerp_mem_of_le h ht ht'
  · rw [min_eq_right h, max_eq_left h]
    exact lerp_mem_of_ge h ht ht'

theorem clamp_of_lt {v lo : Int} (hi : Int) (h : v < lo) : clamp v lo hi = lo := if_pos h

theorem clamp_of_gt {v lo hi : Int} (h : lo ≤ hi) (h' : hi < v) : clamp v lo hi = hi := by
  rw [clamp, if_neg (by omega), if_pos h']

/-- R110: `ONE = 128 * 255 + 128`, so a step of the knob adds 128 and carries at most one. -/
theorem u8ToQ15_succ (v : Nat) : u8ToQ15 (v + 1) = u8ToQ15 v + 128 ∨ u8ToQ15 (v + 1) = u8ToQ15 v + 129 := by
  unfold u8ToQ15
  omega

theorem u8ToQ15_toNat {v : Int} (h : 0 ≤ v) : (u8ToQ15 v.toNat : Int) = v * 32768 / 255 := by
  rw [u8ToQ15_eq, Int.toNat_of_nonneg h]
  rfl

/-- Settles O11: each clause is a fact about `q15Mul`. -/
theorem q15MulFloorsAndStaysInRange : Obligations.Q15MulFloorsAndStaysInRange := by
  refine ⟨q15Mul_floor, q15Mul_one_left, fun a b loA hiA loB hiB => ?_⟩
  have ha : |a| ≤ 32768 := abs_le.mpr ⟨loA, hiA⟩
  have hb : |b| ≤ 32768 := abs_le.mpr ⟨loB, hiB⟩
  obtain ⟨low, high⟩ := abs_le.mp (abs_mul_le_of_signedUnit ha hb)
  exact ⟨low, high, q15Mul_mem ha hb⟩

/-- Settles O12: the distance from `a` is a `q15Mul`, so the ends and the rounding are its own. -/
theorem lerpRunsFromOneEndToTheOther : Obligations.LerpRunsFromOneEndToTheOther := by
  refine ⟨fun a b => ⟨lerp_zero a b, lerp_one a b⟩, fun a b t => ?_, fun a b t _ _ _ _ => lerp_mem a b⟩
  rw [lerp, add_sub_cancel_left]
  exact q15Mul_floor (b - a) t

/-- Settles O13: the ends are computed, and a step is `u8ToQ15_succ`. -/
theorem u8ToQ15StepsBy128Or129 : Obligations.U8ToQ15StepsBy128Or129 :=
  ⟨rfl, rfl, fun v h => ⟨rfl, Nat.mul_le_mul_right 32768 h, fun _ => u8ToQ15_succ v⟩⟩

theorem inKnob_iff (v : Int) : inKnob v = true ↔ 0 ≤ v ∧ v ≤ 255 := decide_eq_true_iff

theorem inUnit_iff (v : Int) : inUnit v = true ↔ 0 ≤ v ∧ v ≤ 32768 := decide_eq_true_iff

theorem inSignedUnit_iff (v : Int) : inSignedUnit v = true ↔ -32768 ≤ v ∧ v ≤ 32768 := decide_eq_true_iff

theorem clampDomain_iff (lo hi : Int) : clampDomain lo hi = true ↔ lo ≤ hi := decide_eq_true_iff

theorem qmulDomain_iff (a b : Int) :
    qmulDomain a b = true ↔ -32768 ≤ a ∧ a ≤ 32768 ∧ -32768 ≤ b ∧ b ≤ 32768 := by
  rw [qmulDomain, Bool.and_eq_true, inSignedUnit_iff, inSignedUnit_iff, and_assoc]

theorem lerpDomain_iff (a b t : Int) :
    lerpDomain a b t = true ↔ 0 ≤ a ∧ a ≤ 32768 ∧ 0 ≤ b ∧ b ≤ 32768 ∧ 0 ≤ t ∧ t ≤ 32768 := by
  simp only [lerpDomain, Bool.and_eq_true, inUnit_iff, and_assoc]

/-- R303: operands that fail the domain's proposition raise `E_DOMAIN`. -/
theorem evaluate_of_not {ok : Bool} {domain : Prop} (h : ok = true ↔ domain) (outside : ¬domain) (v : Int)
    (s : State) : evaluate ok v s = .next { s with errc := 2#2 } :=
  evaluate_outside (Bool.eq_false_iff.mpr (mt h.mp outside)) v s

/-- Settles O4: `q15Mul` inside the domain, where its range fits s32, and `E_DOMAIN` outside. -/
theorem qmulMultipliesInItsDomain : Obligations.QmulMultipliesInItsDomain := by
  refine ⟨decode_of_op .qmul, fun a b s => ⟨fun domain => ⟨?_, ?_⟩, fun outside => ?_⟩⟩
  · exact evaluate_of_domain ((qmulDomain_iff a b).mpr domain) _ s
  · obtain ⟨loA, hiA, loB, hiB⟩ := domain
    obtain ⟨low, high⟩ := q15Mul_mem (abs_le.mpr ⟨loA, hiA⟩) (abs_le.mpr ⟨loB, hiB⟩)
    rw [← q15Mul]
    exact word_toInt (by omega) (by omega)
  · exact evaluate_of_not (qmulDomain_iff a b) outside _ s

/-- Settles O5: `lerp` inside the domain, where it stays between two levels and so fits s32, and `E_DOMAIN`
outside. -/
theorem lerpBlendsInItsDomain : Obligations.LerpBlendsInItsDomain := by
  refine ⟨decode_of_op .lerp, fun a b t s => ⟨fun domain => ⟨?_, ?_⟩, fun outside => ?_⟩⟩
  · exact evaluate_of_domain ((lerpDomain_iff a b t).mpr domain) _ s
  · obtain ⟨loA, hiA, loB, hiB, loT, hiT⟩ := domain
    obtain ⟨low, high⟩ := lerp_mem a b loT hiT
    rw [← q15Mul, ← lerp]
    exact word_toInt (by omega) (by omega)
  · exact evaluate_of_not (lerpDomain_iff a b t) outside _ s

theorem exec_clamp_of_le {lo hi : Int} (h : lo ≤ hi) (v : Int) (s : State) :
    exec (.clamp v lo hi) s = .next { s with res := word (clamp v lo hi), errc := 0#2 } :=
  evaluate_of_domain ((clampDomain_iff lo hi).mpr h) _ s

/-- Settles O6: the three values of `clamp` for an ordered range, and `E_DOMAIN` for any other. -/
theorem clampLimitsToTheRange : Obligations.ClampLimitsToTheRange := by
  refine ⟨decode_of_op .clamp, fun v lo hi s => ⟨fun range below => ?_, fun range above => ?_, fun low high => ?_,
    fun reversed => ?_⟩⟩
  · rw [exec_clamp_of_le range, clamp_of_lt hi below]
  · rw [exec_clamp_of_le range, clamp_of_gt range above]
  · rw [exec_clamp_of_le (low.trans high), clamp_of_mem low high]
  · exact evaluate_of_not (clampDomain_iff lo hi) (not_le.mpr reversed) _ s

/-- Settles O7: the knob's conversion inside its domain, read over the integers, and `E_DOMAIN` outside. -/
theorem u8q15ConvertsAKnob : Obligations.U8q15ConvertsAKnob := by
  refine ⟨decode_of_op .u8q15, fun v s => ⟨fun domain => ?_, fun outside => ?_⟩⟩
  · rw [← u8ToQ15_toNat domain.1]
    exact evaluate_of_domain ((inKnob_iff v).mpr domain) _ s
  · exact evaluate_of_not (inKnob_iff v) outside _ s

end Sys2Proof.Machine
end

section
/-! The time map (spec/41_time_map.md): its formula and order, what TMAP does, and that the attack and decay
knobs of an UPDATE are read only by the transitions they time (R132). -/

namespace Sys2Proof.Machine

/-- R130: the branch for knob 0 agrees with the formula. -/
theorem timeMap_eq (c : Config) (k : Nat) :
    timeMap c k = c.tFloor + k * k * k * (c.tCeil - c.tFloor) / 16581375 := by
  unfold timeMap
  split
  · next zero => simp [zero]
  · rfl

@[simp] theorem timeMap_zero (c : Config) : timeMap c 0 = c.tFloor := rfl

@[simp] theorem timeMap_knobMax (c : Config) : timeMap c 255 = c.tCeil := by
  have whole : 255 * 255 * 255 * (c.tCeil - c.tFloor) / 16581375 = c.tCeil - c.tFloor :=
    Nat.mul_div_cancel_left _ (by decide)
  rw [timeMap_eq, whole, Nat.add_sub_cancel' c.tFloor_le_tCeil]

/-- A span below `255^3` is lost whole in the division at knob 1. -/
theorem timeMap_one {c : Config} (h : c.tCeil - c.tFloor < 16581375) : timeMap c 1 = c.tFloor := by
  simp [timeMap_eq, Nat.div_eq_of_lt h]

theorem timeMap_mono (c : Config) : Monotone (timeMap c) := by
  intro j k h
  rw [timeMap_eq, timeMap_eq]
  gcongr

theorem one_le_timeMap (c : Config) {k : Nat} (h : k ≤ 255) : 1 ≤ timeMap c k :=
  c.one_le_tFloor.trans (timeMap_mem c h).1

/-- The product of R130 is at most its value at knob 255. -/
theorem cube_mul_le {k : Nat} (h : k ≤ 255) (span : Nat) : k * k * k * span ≤ 16581375 * span := by
  have cube : k * k * k ≤ 255 * 255 * 255 := by gcongr
  exact Nat.mul_le_mul_right span cube

/-- Settles O14: the formula is `timeMap_eq`, its ends are `T_FLOOR` and `T_CEIL`, and the span is below `2^31`. -/
theorem timeMapIsMonotoneBetweenItsBounds : Obligations.TimeMapIsMonotoneBetweenItsBounds := by
  refine ⟨fun c k h => ?range, fun c => ⟨timeMap_zero c, timeMap_knobMax c, timeMap_one⟩, timeMap_one (by decide),
    fun c j k h _ => timeMap_mono c h, fun c k h => ⟨timeMap_eq c k, ?width⟩, fun k h => ?defaultWidth⟩
  case range =>
    obtain ⟨low, high⟩ := timeMap_mem c h
    exact ⟨low, high, Nat.one_le_iff_ne_zero.mp (one_le_timeMap c h)⟩
  case width =>
    have product := cube_mul_le h (c.tCeil - c.tFloor)
    have ceil := c.tCeil_lt
    omega
  case defaultWidth => exact (cube_mul_le h _).trans_lt (by decide)

/-- R130 over the integers, as TMAP's operand is one. -/
theorem timeMap_toNat (c : Config) {k : Int} (h : 0 ≤ k) :
    (timeMap c k.toNat : Int) = c.tFloor + k * k * k * ((c.tCeil : Int) - c.tFloor) / 16581375 := by
  lift k to Nat using h
  rw [Int.toNat_natCast, timeMap_eq]
  simp [Nat.cast_sub c.tFloor_le_tCeil]

theorem word_timeMap_toInt (c : Config) {k : Nat} (h : k ≤ 255) : (word (timeMap c k)).toInt = timeMap c k := by
  have high := (timeMap_mem c h).2
  have ceil := c.tCeil_lt
  exact word_toInt (by omega) (by omega)

/-- Settles O8: the time map inside the domain, where it is at most `T_CEIL` and so fits s32, and `E_DOMAIN`
outside. -/
theorem tmapMapsAKnobToADuration : Obligations.TmapMapsAKnobToADuration := by
  refine ⟨decode_of_op .tmap, fun k s => ⟨fun domain => ?_, fun outside => ?_⟩⟩
  · rw [← timeMap_toNat s.config domain.1]
    exact ⟨evaluate_of_domain ((inKnob_iff k).mpr domain) _ s, word_timeMap_toInt s.config (by omega)⟩
  · exact evaluate_of_not (inKnob_iff k) outside _ s

theorem triggered_of_fires {u : Upd} {s : State} {x : ChannelId} (h : Fires u s x) :
    triggered u s x =
      trigOp u.now (timeMap s.config u.potAtt) { s.chan x with gwh := gateHigh s.config (u.gate x) } := by
  rw [triggered, (trigOf_iff_fires u s x).mpr h]
  rfl

theorem triggered_of_not_fires {u : Upd} {s : State} {x : ChannelId} (h : ¬Fires u s x) :
    triggered u s x = { s.chan x with gwh := gateHigh s.config (u.gate x) } := by
  rw [triggered, Bool.eq_false_iff.mpr (mt (trigOf_iff_fires u s x).mp h)]
  rfl

/-- ADV begins Decay, and so reads the decay time, only from Attack when its time is up. -/
theorem adv_congr_tDec {now : Nat} {ch : Channel} (h : ch.stage = .attack → elapsed now ch.start < ch.dur.toNat)
    (tDec tDec' : Nat) (blend : Int) : adv now tDec blend ch = adv now tDec' blend ch := by
  cases stage : ch.stage with
  | idle | decay => simp only [adv, stage]
  | attack => simp only [adv, stage, advAttack, if_neg (Nat.not_le.mpr (h stage))]

/-- The attack knob enters an UPDATE of a channel through TRIG alone, the decay knob through ADV alone. -/
theorem updateState_chan_congr_knobs {u : Upd} {s : State} {x : ChannelId} {att dec : Nat}
    (trig : triggered { u with potAtt := att, potDec := dec } s x = triggered u s x)
    (waits : (triggered u s x).stage = .attack →
      elapsed u.now (triggered u s x).start < (triggered u s x).dur.toNat) :
    (updateState { u with potAtt := att, potDec := dec } s).chan x = (updateState u s).chan x := by
  have moved : advanced { u with potAtt := att, potDec := dec } s x = advanced u s x := by
    rw [advanced, trig]
    exact adv_congr_tDec waits _ _ _
  have fire : trigOf { u with potAtt := att, potDec := dec } s x = trigOf u s x := rfl
  rw [updateState_chan, updateState_chan, moved, fire]

/-- A stage that begins now is not over: every duration is at least 1. -/
theorem elapsed_lt_dur_of_trigOp {c : Config} {k : Nat} (h : k ≤ 255) (now : Nat) (ch : Channel) :
    elapsed now (trigOp now (timeMap c k) ch).start < (trigOp now (timeMap c k) ch).dur.toNat := by
  have dur : (trigOp now (timeMap c k) ch).dur.toNat = timeMap c k := toNat_ofNat_of_le_tCeil c (timeMap_mem c h).2
  have start : elapsed now (trigOp now (timeMap c k) ch).start = 0 := elapsed_self now
  rw [dur, start]
  exact one_le_timeMap c h

/-- Settles O29: without a trigger TRIG reads no knob, and ADV then leaves Attack at no other time than its own;
with one, Attack has just begun. -/
theorem timeKnobsWaitForATransition : Obligations.TimeKnobsWaitForATransition := by
  intro u att dec s t t' x wf _ _ e e'
  cases e
  cases e'
  refine ⟨fun quiet running => (updateState_chan_congr_knobs ?_ ?_).symm, fun fires same => ?_⟩
  · have quiet' : ¬Fires { u with potAtt := att, potDec := dec } s x := quiet
    exact (triggered_of_not_fires quiet').trans (triggered_of_not_fires quiet).symm
  · rw [triggered_of_not_fires quiet]
    intro attack
    exact running.resolve_left fun idle => nomatch idle.symm.trans attack
  · subst same
    refine (updateState_chan_congr_knobs rfl fun _ => ?_).symm
    rw [triggered_of_fires fires]
    exact elapsed_lt_dur_of_trigOp (Upd.knobs_le_of_wellFormed wf).1 _ _

end Sys2Proof.Machine
end

section
/-! The shape curve (spec/42_shape.md): the ends and the order of its quadratic position, the curve's from
them, and what SHAPE does. -/

namespace Sys2Proof.Machine

theorem q15Mul_mono {a b a' b' : Int} (ha : 0 ≤ a) (hb : 0 ≤ b) (h : a ≤ a') (h' : b ≤ b') :
    q15Mul a b ≤ q15Mul a' b' :=
  Int.ediv_le_ediv (by decide) (mul_le_mul h h' hb (ha.trans h))

/-- R103 as one weighted sum of the ends, in which neither weight is negative. -/
theorem lerp_eq_weighted (a b t : Int) : lerp a b t = (a * (32768 - t) + b * t) / 32768 := by
  have sum : a * (32768 - t) + b * t = (b - a) * t + a * 32768 := by ring
  rw [sum, Int.add_mul_ediv_right _ _ (by decide), lerp, q15Mul, add_comm]

theorem lerp_mono {a b a' b' t : Int} (h : a ≤ a') (h' : b ≤ b') (ht : 0 ≤ t) (ht' : t ≤ 32768) :
    lerp a b t ≤ lerp a' b' t := by
  have weight : 0 ≤ 32768 - t := sub_nonneg.mpr ht'
  rw [lerp_eq_weighted, lerp_eq_weighted]
  apply Int.ediv_le_ediv (by decide)
  gcongr

@[simp] theorem lerp_self (a t : Int) : lerp a a t = a := by simp [lerp, q15Mul]

@[simp] theorem expPos_zero (dir : Bool) : expPos 0 dir = 0 := by cases dir <;> rfl

@[simp] theorem expPos_one (dir : Bool) : expPos 32768 dir = 32768 := by cases dir <;> rfl

/-- In Attack the square grows with the position; in Decay the square of the rest shrinks. -/
theorem expPos_mono {p q : Int} (dir : Bool) (hp : 0 ≤ p) (h : p ≤ q) (hq : q ≤ 32768) :
    expPos p dir ≤ expPos q dir := by
  cases dir with
  | true => exact q15Mul_mono hp hp h h
  | false =>
    have rest : 32768 - q ≤ 32768 - p := sub_le_sub_left h _
    have rest_nonneg : 0 ≤ 32768 - q := sub_nonneg.mpr hq
    exact sub_le_sub_left (q15Mul_mono rest_nonneg rest_nonneg rest rest) _

@[simp] theorem shape_blend_zero (pos : Int) (dir : Bool) : shape pos 0 dir = pos := lerp_zero _ _

@[simp] theorem shape_zero (blend : Int) (dir : Bool) : shape 0 blend dir = 0 := by simp [shape]

@[simp] theorem shape_one (blend : Int) (dir : Bool) : shape 32768 blend dir = 32768 := by simp [shape]

/-- Settles O16: a blend of two ends that both grow with the position. -/
theorem shapeIsNonDecreasingInPosition : Obligations.ShapeIsNonDecreasingInPosition :=
  fun _ _ _ dir hp h hq hb hb' => lerp_mono h (expPos_mono dir hp h hq) hb hb'

/-- Settles O15: the ends of the blend are the position and a quadratic position below it in Attack, above it
in Decay. -/
theorem shapeStaysInRangeAndIsPinned : Obligations.ShapeStaysInRangeAndIsPinned := by
  intro pos blend h h' hb hb'
  refine ⟨fun dir => ?_, ?_, ?_⟩
  · obtain ⟨low, high⟩ := shape_mem dir h h' hb hb'
    exact ⟨low, high, shape_blend_zero pos dir, shape_zero blend dir, shape_one blend dir⟩
  · exact (lerp_mem_of_ge (expPos_attack h h').2 hb hb').2
  · exact (lerp_mem_of_le (expPos_decay h h').1 hb hb').1

theorem shapeDomain_iff (pos blend dir : Int) :
    shapeDomain pos blend dir = true ↔
      0 ≤ pos ∧ pos ≤ 32768 ∧ 0 ≤ blend ∧ blend ≤ 32768 ∧ (dir = 0 ∨ dir = 1) := by
  simp only [shapeDomain, Bool.and_eq_true, inUnit_iff, decide_eq_true_iff, and_assoc]

theorem word_shape_toInt {pos blend : Int} (dir : Bool) (h : 0 ≤ pos) (h' : pos ≤ 32768) (hb : 0 ≤ blend)
    (hb' : blend ≤ 32768) : (word (shape pos blend dir)).toInt = shape pos blend dir := by
  obtain ⟨low, high⟩ := shape_mem dir h h' hb hb'
  exact word_toInt (by omega) (by omega)

theorem exec_shape (pos blend dir : Int) (s : State) :
    exec (.shape pos blend dir) s =
      evaluate (shapeDomain pos blend dir) (shape pos blend (decide (dir = 1))) s := rfl

/-- SHAPE in its domain, for the operand that names the direction. -/
theorem exec_shape_of_domain {pos blend : Int} (dir : Bool) (h : 0 ≤ pos) (h' : pos ≤ 32768) (hb : 0 ≤ blend)
    (hb' : blend ≤ 32768) (s : State) :
    exec (.shape pos blend dir.toInt) s = .next { s with res := word (shape pos blend dir), errc := 0#2 } := by
  have domain : shapeDomain pos blend dir.toInt = true :=
    (shapeDomain_iff ..).mpr ⟨h, h', hb, hb', by cases dir <;> decide⟩
  have direction : decide (dir.toInt = 1) = dir := by cases dir <;> rfl
  rw [exec_shape, direction]
  exact evaluate_of_domain domain _ s

/-- Settles O9: the curve of each direction inside the domain, where it is a level and so fits s32, and
`E_DOMAIN` outside. -/
theorem shapeBlendsLineAndCurve : Obligations.ShapeBlendsLineAndCurve := by
  refine ⟨decode_of_op .shape, fun pos blend s => ⟨fun ⟨h, h', hb, hb'⟩ => ⟨?_, ?_⟩, fun dir outside => ?_⟩⟩
  · exact ⟨exec_shape_of_domain true h h' hb hb' s, word_shape_toInt true h h' hb hb'⟩
  · exact ⟨exec_shape_of_domain false h h' hb hb' s, word_shape_toInt false h h' hb hb'⟩
  · rw [exec_shape]
    exact evaluate_of_not (shapeDomain_iff pos blend dir) outside _ s

end Sys2Proof.Machine
end

section
/-! Time in a stage (spec/43_channel_fsm.md R171, R172): elapsed time across a wrap of the clock, and the linear
position it gives. -/

namespace Sys2Proof.Machine

theorem elapsed_eq_emod (now : Nat) (start : Word) :
    (elapsed now start : Int) = ((now : Int) - start.toNat) % 4294967296 :=
  wrap32_eq _

/-- R171: both clock readings are true times modulo `2^32`, and so is their difference. -/
theorem elapsed_of_true_times {began now : Nat} {start : Word} (register : start.toNat = began % 4294967296)
    (order : began ≤ now) (short : now - began < 4294967296) :
    elapsed (now % 4294967296) start = now - began := by
  have difference := elapsed_eq_emod (now % 4294967296) start
  rw [register] at difference
  omega

/-- A `NOW` that lies `d` microseconds after the `NOW` at which the stage began. -/
theorem elapsed_add (began : Nat) {d : Nat} (short : d < 4294967296) :
    elapsed ((began + d) % 4294967296) (BitVec.ofNat 32 began) = d := by
  rw [elapsed_of_true_times (BitVec.toNat_ofNat _ _) (Nat.le_add_right _ _) (by omega), Nat.add_sub_cancel_left]

/-- R177: a `NOW` before the stage's start time wraps. -/
theorem elapsed_of_lt {now : Nat} {start : Word} (h : now < start.toNat) :
    elapsed now start = 4294967296 - (start.toNat - now) := by
  have difference := elapsed_eq_emod now start
  have register := start.isLt
  omega

/-- R172: a running stage has a positive duration, so the guard `max(dur, 1)` does nothing. -/
theorem lin_eq_of_lt {e d : Nat} (h : e < d) : lin e d = e * 32768 / d := by
  rw [lin, max_eq_left (Nat.one_le_of_lt h)]

theorem lin_mono {e e' : Nat} (h : e ≤ e') (d : Nat) : lin e d ≤ lin e' d :=
  Nat.div_le_div_right (Nat.mul_le_mul_right 32768 h)

theorem lin_mem {e d : Nat} (running : e < d) : 0 ≤ (lin e d : Int) ∧ (lin e d : Int) ≤ 32768 :=
  ⟨Int.natCast_nonneg _, by exact_mod_cast (lin_lt running).le⟩

/-- The falling position of a Decay (R176). -/
theorem one_sub_lin_mem {e d : Nat} (running : e < d) :
    0 ≤ (32768 - lin e d : Int) ∧ (32768 - lin e d : Int) ≤ 32768 := by
  obtain ⟨low, high⟩ := lin_mem running
  exact ⟨sub_nonneg.mpr high, sub_le_self _ low⟩

/-- Settles O17: the guard does nothing, the bound is `lin_lt`, and the duration divides a growing product. -/
theorem linearPositionStaysBelowOne : Obligations.LinearPositionStaysBelowOne :=
  ⟨fun _ _ h => ⟨lin_lt h, lin_eq_of_lt h⟩, fun _ _ d h _ => lin_mono h d⟩

/-- Settles O18: the difference is the definition's, and true times below `2^32` apart are told by it. -/
theorem elapsedIsTrueTimeAcrossAWrap : Obligations.ElapsedIsTrueTimeAcrossAWrap :=
  ⟨elapsed_eq_emod, fun _ _ _ => elapsed_of_true_times⟩

end Sys2Proof.Machine
end

section
/-! A channel after an UPDATE, in each branch of TRIG and ADV (spec/43_channel_fsm.md R170, R173 to R176). -/

namespace Sys2Proof.Machine

section
variable {now tDec : Nat} {blend : Int} {ch : Channel}

theorem adv_of_idle (stage : ch.stage = .idle) : adv now tDec blend ch = ({ ch with level := word 0 }, false) := by
  simp only [adv, stage, advIdle]

theorem adv_of_attack_ended (stage : ch.stage = .attack) (ended : ch.dur.toNat ≤ elapsed now ch.start) :
    adv now tDec blend ch =
      ({ ch with level := word 32768, stage := .decay, start := BitVec.ofNat 32 now, dur := BitVec.ofNat 32 tDec },
        false) := by
  simp only [adv, stage, advAttack, ge_iff_le, if_pos ended]

theorem adv_of_attack_running (stage : ch.stage = .attack) (running : elapsed now ch.start < ch.dur.toNat) :
    adv now tDec blend ch =
      ({ ch with level := word (shape (lin (elapsed now ch.start) ch.dur.toNat) blend true) }, false) := by
  simp only [adv, stage, advAttack, ge_iff_le, if_neg (Nat.not_le.mpr running)]

theorem adv_of_decay_ended (stage : ch.stage = .decay) (ended : ch.dur.toNat ≤ elapsed now ch.start) :
    adv now tDec blend ch = ({ ch with level := word 0, stage := .idle }, true) := by
  simp only [adv, stage, advDecay, ge_iff_le, if_pos ended]

theorem adv_of_decay_running (stage : ch.stage = .decay) (running : elapsed now ch.start < ch.dur.toNat) :
    adv now tDec blend ch =
      ({ ch with level := word (shape (32768 - lin (elapsed now ch.start) ch.dur.toNat) blend false) }, false) := by
  simp only [adv, stage, advDecay, ge_iff_le, if_neg (Nat.not_le.mpr running)]

end

section
variable {u : Upd} {s : State} {x : ChannelId}

/-- Steps 6 and 7 of R220 after an ADV that answers a level in `[0, ONE]`. -/
theorem updateState_chan_of_advanced {ch : Channel} {eoc : Bool} {v : Int} (moved : advanced u s x = (ch, eoc))
    (level : ch.level = word v) (low : 0 ≤ v) (high : v ≤ 32768) :
    (updateState u s).chan x =
      { ch with vout := word (vconv s.config v), eoc := eoc, trig := trigOf u s x } := by
  have value : ch.level.toInt = v := by
    rw [level]
    exact word_toInt (by omega) (by omega)
  rw [updateState_chan, moved, emitOp_of_mem _ (value ▸ low) (value ▸ high), value]

theorem trigOf_of_not_fires (quiet : ¬Fires u s x) : trigOf u s x = false :=
  Bool.eq_false_iff.mpr (mt (trigOf_iff_fires u s x).mp quiet)

/-- The same for a channel that is not triggered: ADV starts from its registers, the latch written. -/
theorem updateState_chan_of_adv {ch : Channel} {eoc : Bool} {v : Int} (quiet : ¬Fires u s x)
    (moved : adv u.now (timeMap s.config u.potDec) (u8ToQ15 u.potShape)
      { s.chan x with gwh := gateHigh s.config (u.gate x) } = (ch, eoc))
    (level : ch.level = word v) (low : 0 ≤ v) (high : v ≤ 32768) :
    (updateState u s).chan x = { ch with vout := word (vconv s.config v), eoc := eoc, trig := false } := by
  rw [← triggered_of_not_fires quiet] at moved
  rw [updateState_chan_of_advanced moved level low high, trigOf_of_not_fires quiet]

/-- R170: TRIG restarts the channel, and at elapsed time 0 the curve is at 0. -/
theorem updateState_chan_of_fires (wf : u.wellFormed = true) (fires : Fires u s x) :
    (updateState u s).chan x =
      { stage := .attack, level := 0#32, start := BitVec.ofNat 32 u.now,
        dur := BitVec.ofNat 32 (timeMap s.config u.potAtt), gwh := gateHigh s.config (u.gate x),
        vout := word (vconv s.config 0), eoc := false, trig := true } := by
  have restart := triggered_of_fires fires
  have atStart : elapsed u.now (triggered u s x).start = 0 := by
    rw [restart]
    exact elapsed_self u.now
  have running : elapsed u.now (triggered u s x).start < (triggered u s x).dur.toNat := by
    rw [restart]
    exact elapsed_lt_dur_of_trigOp (Upd.knobs_le_of_wellFormed wf).1 _ _
  have attack : (triggered u s x).stage = .attack := by
    rw [restart]
    rfl
  have moved : advanced u s x = ({ triggered u s x with level := word 0 }, false) := by
    rw [advanced, adv_of_attack_running attack running, atStart, lin_zero, Nat.cast_zero, shape_zero]
  rw [updateState_chan_of_advanced moved rfl le_rfl (by decide), restart, (trigOf_iff_fires u s x).mpr fires]
  rfl

theorem updateState_chan_of_idle (quiet : ¬Fires u s x) (stage : (s.chan x).stage = .idle) :
    (updateState u s).chan x =
      { s.chan x with
        level := 0#32, gwh := gateHigh s.config (u.gate x), vout := word (vconv s.config 0), eoc := false,
        trig := false } :=
  updateState_chan_of_adv quiet (adv_of_idle stage) rfl le_rfl (by decide)

theorem updateState_chan_of_attack_ended (quiet : ¬Fires u s x) (stage : (s.chan x).stage = .attack)
    (ended : (s.chan x).dur.toNat ≤ elapsed u.now (s.chan x).start) :
    (updateState u s).chan x =
      { stage := .decay, level := 32768#32, start := BitVec.ofNat 32 u.now,
        dur := BitVec.ofNat 32 (timeMap s.config u.potDec), gwh := gateHigh s.config (u.gate x),
        vout := word (vconv s.config 32768), eoc := false, trig := false } :=
  updateState_chan_of_adv quiet (adv_of_attack_ended stage ended) rfl (by decide) le_rfl

theorem updateState_chan_of_decay_ended (quiet : ¬Fires u s x) (stage : (s.chan x).stage = .decay)
    (ended : (s.chan x).dur.toNat ≤ elapsed u.now (s.chan x).start) :
    (updateState u s).chan x =
      { s.chan x with
        stage := .idle, level := 0#32, gwh := gateHigh s.config (u.gate x), vout := word (vconv s.config 0),
        eoc := true, trig := false } :=
  updateState_chan_of_adv quiet (adv_of_decay_ended stage ended) rfl le_rfl (by decide)

theorem blend_mem (wf : u.wellFormed = true) :
    0 ≤ (u8ToQ15 u.potShape : Int) ∧ (u8ToQ15 u.potShape : Int) ≤ 32768 := by
  obtain ⟨-, -, knob⟩ := Upd.knobs_le_of_wellFormed wf
  exact ⟨Int.natCast_nonneg _, by exact_mod_cast u8ToQ15_le knob⟩

/-- The level of a running stage, and that nothing else of the stage changes (R175, R176). -/
theorem updateState_chan_of_attack_running (wf : u.wellFormed = true) (quiet : ¬Fires u s x)
    (stage : (s.chan x).stage = .attack) (running : elapsed u.now (s.chan x).start < (s.chan x).dur.toNat) :
    let level := shape (lin (elapsed u.now (s.chan x).start) (s.chan x).dur.toNat) (u8ToQ15 u.potShape) true
    (updateState u s).chan x =
      { s.chan x with
        level := word level, gwh := gateHigh s.config (u.gate x), vout := word (vconv s.config level), eoc := false,
        trig := false } := by
  obtain ⟨blendLow, blendHigh⟩ := blend_mem wf
  obtain ⟨posLow, posHigh⟩ := lin_mem running
  obtain ⟨low, high⟩ := shape_mem true posLow posHigh blendLow blendHigh
  exact updateState_chan_of_adv quiet (adv_of_attack_running stage running) rfl low high

theorem updateState_chan_of_decay_running (wf : u.wellFormed = true) (quiet : ¬Fires u s x)
    (stage : (s.chan x).stage = .decay) (running : elapsed u.now (s.chan x).start < (s.chan x).dur.toNat) :
    let level := shape (32768 - lin (elapsed u.now (s.chan x).start) (s.chan x).dur.toNat) (u8ToQ15 u.potShape) false
    (updateState u s).chan x =
      { s.chan x with
        level := word level, gwh := gateHigh s.config (u.gate x), vout := word (vconv s.config level), eoc := false,
        trig := false } := by
  obtain ⟨blendLow, blendHigh⟩ := blend_mem wf
  obtain ⟨posLow, posHigh⟩ := one_sub_lin_mem running
  obtain ⟨low, high⟩ := shape_mem false posLow posHigh blendLow blendHigh
  exact updateState_chan_of_adv quiet (adv_of_decay_running stage running) rfl low high

end

/-- Settles O20: TRIG, then ADV at elapsed time 0. -/
theorem triggeredChannelRestartsItsAttack : Obligations.TriggeredChannelRestartsItsAttack :=
  fun u s _ wf fires => ⟨_, exec_update u s, updateState_chan_of_fires wf fires⟩

/-- Settles O21: the Idle branch of ADV. -/
theorem untriggeredIdleChannelStaysIdle : Obligations.UntriggeredIdleChannelStaysIdle :=
  fun u s _ quiet stage => ⟨_, exec_update u s, updateState_chan_of_idle quiet stage⟩

/-- Settles O22: the two Attack branches of ADV. -/
theorem attackRisesThenSnapsIntoDecay : Obligations.AttackRisesThenSnapsIntoDecay :=
  fun u s _ wf quiet stage => ⟨_, exec_update u s, updateState_chan_of_attack_ended quiet stage,
    updateState_chan_of_attack_running wf quiet stage⟩

/-- Settles O23: the two Decay branches of ADV. -/
theorem decayFallsThenEndsTheCycle : Obligations.DecayFallsThenEndsTheCycle :=
  fun u s _ wf quiet stage => ⟨_, exec_update u s, updateState_chan_of_decay_ended quiet stage,
    updateState_chan_of_decay_running wf quiet stage⟩

end Sys2Proof.Machine
end

section
/-! What follows for a channel over several UPDATEs (spec/43_channel_fsm.md R175 to R177): the order of its
levels, the length of a cycle, and a clock that runs backward. -/

namespace Sys2Proof.Machine

variable {u : Upd} {s : State} {x : ChannelId}

theorem updateState_level_of_attack_running (wf : u.wellFormed = true) (quiet : ¬Fires u s x)
    (stage : (s.chan x).stage = .attack) (running : elapsed u.now (s.chan x).start < (s.chan x).dur.toNat) :
    ((updateState u s).chan x).level.toInt =
      shape (lin (elapsed u.now (s.chan x).start) (s.chan x).dur.toNat) (u8ToQ15 u.potShape) true := by
  obtain ⟨blendLow, blendHigh⟩ := blend_mem wf
  obtain ⟨posLow, posHigh⟩ := lin_mem running
  rw [updateState_chan_of_attack_running wf quiet stage running]
  exact word_shape_toInt true posLow posHigh blendLow blendHigh

theorem updateState_level_of_decay_running (wf : u.wellFormed = true) (quiet : ¬Fires u s x)
    (stage : (s.chan x).stage = .decay) (running : elapsed u.now (s.chan x).start < (s.chan x).dur.toNat) :
    ((updateState u s).chan x).level.toInt =
      shape (32768 - lin (elapsed u.now (s.chan x).start) (s.chan x).dur.toNat) (u8ToQ15 u.potShape) false := by
  obtain ⟨blendLow, blendHigh⟩ := blend_mem wf
  obtain ⟨posLow, posHigh⟩ := one_sub_lin_mem running
  rw [updateState_chan_of_decay_running wf quiet stage running]
  exact word_shape_toInt false posLow posHigh blendLow blendHigh

/-- A stage that is not over keeps its name, its start time and its duration. -/
theorem updateState_stage_of_running (wf : u.wellFormed = true) (quiet : ¬Fires u s x)
    (running : elapsed u.now (s.chan x).start < (s.chan x).dur.toNat) :
    ((updateState u s).chan x).stage = (s.chan x).stage ∧ ((updateState u s).chan x).start = (s.chan x).start ∧
      ((updateState u s).chan x).dur = (s.chan x).dur := by
  cases stage : (s.chan x).stage with
  | idle =>
    rw [updateState_chan_of_idle quiet stage]
    exact ⟨stage, rfl, rfl⟩
  | attack =>
    rw [updateState_chan_of_attack_running wf quiet stage running]
    exact ⟨stage, rfl, rfl⟩
  | decay =>
    rw [updateState_chan_of_decay_running wf quiet stage running]
    exact ⟨stage, rfl, rfl⟩

/-- Settles O30: both levels are on one curve, the second at a linear position no lower than the first, and both
the position and the curve are monotone. -/
theorem levelsRiseInAttackAndFallInDecay : Obligations.LevelsRiseInAttackAndFallInDecay := by
  intro u u' s t t' x wf wf' shapeKnob e e' quiet quiet' order running'
  cases e
  cases e'
  have running := order.trans_lt running'
  obtain ⟨blendLow, blendHigh⟩ := blend_mem wf'
  obtain ⟨low, -⟩ := lin_mem running
  obtain ⟨-, high⟩ := lin_mem running'
  obtain ⟨low', -⟩ := one_sub_lin_mem running'
  obtain ⟨-, high'⟩ := one_sub_lin_mem running
  have rises := Int.ofNat_le.mpr (lin_mono order (s.chan x).dur.toNat)
  obtain ⟨sameStage, sameStart, sameDur⟩ := updateState_stage_of_running wf quiet running
  rw [← sameStart, ← sameDur] at running'
  constructor
  · intro stage
    rw [updateState_level_of_attack_running wf quiet stage running,
      updateState_level_of_attack_running wf' quiet' (sameStage.trans stage) running', sameStart, sameDur, shapeKnob]
    exact shapeIsNonDecreasingInPosition _ _ _ _ low rises high blendLow blendHigh
  · intro stage
    rw [updateState_level_of_decay_running wf quiet stage running,
      updateState_level_of_decay_running wf' quiet' (sameStage.trans stage) running', sameStart, sameDur, shapeKnob]
    exact shapeIsNonDecreasingInPosition _ _ _ _ low' (sub_le_sub_left rises _) high' blendLow blendHigh

theorem updateState_pulseOut_eq (u : Upd) (s : State) :
    (updateState u s).pulseOut =
      (((updateState u s).chan .a).eoc || ((updateState u s).chan .b).eoc) := rfl

theorem updateState_pulseOut_of_eoc (h : ((updateState u s).chan x).eoc = true) :
    (updateState u s).pulseOut = true := by
  rw [updateState_pulseOut_eq, Bool.or_eq_true]
  cases x with
  | a => exact .inl h
  | b => exact .inr h

/-- A stage begun at `began` with the duration of a knob is over for an UPDATE exactly that much later. -/
theorem dur_le_elapsed_of_boundary {ch : Channel} {c : Config} {began now k : Nat} (knob : k ≤ 255)
    (start : ch.start = BitVec.ofNat 32 began) (dur : ch.dur = BitVec.ofNat 32 (timeMap c k))
    (boundary : now = (began + timeMap c k) % 4294967296) : ch.dur.toNat ≤ elapsed now ch.start := by
  have longest := (timeMap_mem c knob).2
  have ceil := c.tCeil_lt
  rw [start, dur, boundary, elapsed_add began (by omega), toNat_ofNat_of_le_tCeil c longest]

/-- Settles O31: the first UPDATE restarts the channel, the next two come when its stage is over, and the last
finds it Idle. -/
theorem fullCycleTakesAttackPlusDecay : Obligations.FullCycleTakesAttackPlusDecay := by
  intro u0 u1 u2 u3 s t0 t1 t2 t3 x wf0 wf1 _ _ e0 e1 e2 e3 fires quiet1 quiet2 quiet3 attackTime decayTime
  cases e0
  cases e1
  cases e2
  cases e3
  have restart := updateState_chan_of_fires wf0 fires
  have attack := congrArg Channel.stage restart
  have attackOver := dur_le_elapsed_of_boundary (Upd.knobs_le_of_wellFormed wf0).1 (congrArg Channel.start restart)
    (congrArg Channel.dur restart) attackTime
  have snap := updateState_chan_of_attack_ended quiet1 attack attackOver
  have decay := congrArg Channel.stage snap
  have decayOver := dur_le_elapsed_of_boundary (Upd.knobs_le_of_wellFormed wf1).2.1 (congrArg Channel.start snap)
    (congrArg Channel.dur snap) decayTime
  have finish := updateState_chan_of_decay_ended quiet2 decay decayOver
  have idle := congrArg Channel.stage finish
  have eoc := congrArg Channel.eoc finish
  have rest := updateState_chan_of_idle quiet3 idle
  exact ⟨⟨attack, congrArg Channel.level restart, congrArg Channel.eoc restart⟩,
    ⟨decay, congrArg Channel.level snap, congrArg Channel.eoc snap⟩,
    ⟨idle, congrArg Channel.level finish, eoc, updateState_pulseOut_of_eoc eoc⟩,
    ⟨(congrArg Channel.stage rest).trans idle, congrArg Channel.level rest, congrArg Channel.eoc rest⟩⟩

/-- Settles O34: elapsed time wraps to at least `T_CEIL`, which no duration exceeds. -/
theorem backwardClockEndsTheStage : Obligations.BackwardClockEndsTheStage := by
  intro u s x t inv _ quiet before distance e
  cases e
  have wrapped := elapsed_of_lt before
  have dur := (inv.channel x).dur_le_ceil
  have ended : (s.chan x).dur.toNat ≤ elapsed u.now (s.chan x).start := by
    have ceil := s.config.tCeil_lt
    omega
  refine ⟨wrapped, fun attack => ?_, fun decay => ?_⟩
  · rw [updateState_chan_of_attack_ended quiet attack ended]
    exact ⟨rfl, rfl⟩
  · rw [updateState_chan_of_decay_ended quiet decay ended]
    exact ⟨rfl, rfl, rfl⟩

end Sys2Proof.Machine
end

section
/-! What every step keeps of a channel: the consistency of the status registers, and an Idle channel's rest
while only quiet UPDATEs wait (spec/43_channel_fsm.md R174). -/

namespace Sys2Proof.Machine

/-- Only the end of Decay answers an end-of-cycle, and it goes Idle (R176). -/
theorem adv_stage_of_eoc {now tDec : Nat} {blend : Int} {ch : Channel} (h : (adv now tDec blend ch).2 = true) :
    (adv now tDec blend ch).1.stage = .idle := by
  obtain ⟨-, e⟩ | ⟨-, -, e⟩ | ⟨-, -, e⟩ | ⟨-, -, e⟩ | ⟨-, -, e⟩ := adv_cases now tDec blend ch <;> rw [e] at h ⊢
  all_goals cases h

theorem updateState_statusInv {u : Upd} (wf : u.wellFormed = true) (s : State) : (updateState u s).StatusInv where
  trig_attack x trig := by
    rw [updateState_chan_of_fires wf ((updateState_trig_iff_fires u s x).mp trig)]
    exact ⟨rfl, rfl⟩
  eoc_idle x eoc := by
    rw [updateState_chan] at eoc ⊢
    exact adv_stage_of_eoc eoc
  pulse_eq := updateState_pulseOut_eq u s
  errc_ne_three := by
    rw [updateState_errc]
    decide

/-- The facts about the status registers say nothing of `RES`, the parameters and the waiting commands, and of
`ERRC` only that it is not 3. -/
theorem State.StatusInv.of_same_envelope {s t : State} (h : s.StatusInv) (chan : ∀ x, t.chan x = s.chan x)
    (pulse : t.pulseOut = s.pulseOut) (errc : t.errc ≠ 3#2) : t.StatusInv where
  trig_attack x := by
    rw [chan]
    exact h.trig_attack x
  eoc_idle x := by
    rw [chan]
    exact h.eoc_idle x
  pulse_eq := by
    rw [pulse, chan, chan]
    exact h.pulse_eq
  errc_ne_three := errc

/-- UPDATE and RESET establish the facts; the other commands keep them. -/
theorem exec_statusInv {i : Instr} (wf : i.wellFormed = true) {s t : State} (h : s.StatusInv)
    (e : exec i s = .next t) : t.StatusInv := by
  have noError : 0#2 ≠ 3#2 := by decide
  have domain : 2#2 ≠ 3#2 := by decide
  obtain ⟨-, rfl⟩ | ⟨-, rfl⟩ | ⟨u, rfl, rfl⟩ | ⟨-, -, -, v, rfl⟩ | ⟨-, -, -, -, rfl⟩ := exec_cases e
  · exact h.of_same_envelope (State.setErrc_chan s · _) rfl noError
  · exact atReset_statusInv _ _
  · exact updateState_statusInv wf s
  · exact h.of_same_envelope (fun x => by cases x <;> rfl) rfl noError
  · exact h.of_same_envelope (State.setErrc_chan s · _) rfl domain

/-- Settles O44: a step waits, executes a decoded command, or writes `ERRC <- 1` alone. -/
theorem everyStepKeepsTheStatusConsistent : Obligations.EveryStepKeepsTheStatusConsistent := by
  intro s t h hstep
  obtain ⟨-, e⟩ | ⟨c, rest, i, -, d, e⟩ | ⟨c, rest, -, -, -, e⟩ := step_cases s <;> rw [e] at hstep
  · cases hstep
    exact h
  · have taken : (s.setCmds rest).StatusInv := h.of_same_envelope (State.setCmds_chan s · rest) rfl h.errc_ne_three
    exact exec_statusInv (wellFormed_of_decode_ok d) taken hstep
  · have illegal : 1#2 ≠ 3#2 := by decide
    cases hstep
    exact h.of_same_envelope (fun x => by cases x <;> rfl) rfl illegal

theorem not_fires_of_quiet {u : Upd} {s : State} {x : ChannelId} (h : Quiet u s.config x) : ¬Fires u s x := by
  obtain ⟨gate, btn, pedge⟩ := h
  rintro (⟨high, -⟩ | ⟨pressed, -⟩ | edge)
  · exact absurd high gate.not_gt
  · cases btn.symm.trans pressed
  · cases pedge.symm.trans edge

/-- No command writes the parameters or the queue. -/
theorem exec_config_cmds {i : Instr} {s t : State} (e : exec i s = .next t) :
    t.config = s.config ∧ t.cmds = s.cmds := by
  obtain ⟨-, rfl⟩ | ⟨-, rfl⟩ | ⟨u, -, rfl⟩ | ⟨-, -, -, v, rfl⟩ | ⟨-, -, -, -, rfl⟩ := exec_cases e
  all_goals exact ⟨rfl, rfl⟩

/-- A command that is no UPDATE keeps a channel or resets it, and an untriggered UPDATE keeps it Idle. -/
theorem exec_keeps_idle {i : Instr} {s t : State} {x : ChannelId} (stage : (s.chan x).stage = .idle)
    (level : (s.chan x).level = 0#32) (quiet : ∀ u, i = .update u → ¬Fires u s x) (e : exec i s = .next t) :
    (t.chan x).stage = .idle ∧ (t.chan x).level = 0#32 := by
  obtain ⟨-, rfl⟩ | ⟨-, rfl⟩ | ⟨u, update, rfl⟩ | ⟨-, -, -, v, rfl⟩ | ⟨-, -, -, -, rfl⟩ := exec_cases e
  · cases x <;> exact ⟨stage, level⟩
  · rw [State.atReset_chan]
    exact ⟨rfl, rfl⟩
  · rw [updateState_chan_of_idle (quiet u update) stage]
    exact ⟨stage, rfl⟩
  · cases x <;> exact ⟨stage, level⟩
  · cases x <;> exact ⟨stage, level⟩

theorem State.QuietFor.of_same_channel {s t : State} {x : ChannelId} (h : s.QuietFor x)
    (chan : t.chan x = s.chan x) (config : t.config = s.config) (cmds : t.cmds ⊆ s.cmds) : t.QuietFor x where
  idle := by rw [chan]; exact h.idle
  level_zero := by rw [chan]; exact h.level_zero
  waiting_quiet c waits := by rw [config]; exact h.waiting_quiet c (cmds waits)

/-- Taking the oldest command leaves fewer to wait. -/
theorem State.QuietFor.setCmds_tail {s : State} {x : ChannelId} {c : Command} {rest : List Command}
    (h : s.QuietFor x) (queue : s.cmds = c :: rest) : (s.setCmds rest).QuietFor x :=
  h.of_same_channel (State.setCmds_chan s x rest) rfl (queue ▸ List.subset_cons_self c rest)

theorem exec_quietFor {i : Instr} {s t : State} {x : ChannelId} (h : s.QuietFor x)
    (quiet : ∀ u, i = .update u → Quiet u s.config x) (e : exec i s = .next t) : t.QuietFor x := by
  obtain ⟨config, cmds⟩ := exec_config_cmds e
  obtain ⟨idle, level⟩ := exec_keeps_idle h.idle h.level_zero (fun u update => not_fires_of_quiet (quiet u update)) e
  exact ⟨idle, level, by rw [config, cmds]; exact h.waiting_quiet⟩

theorem step_quietFor {s t : State} {x : ChannelId} (h : s.QuietFor x) (hstep : step s = .next t) :
    t.QuietFor x := by
  obtain ⟨-, e⟩ | ⟨c, rest, i, queue, d, e⟩ | ⟨c, rest, -, queue, -, e⟩ := step_cases s <;> rw [e] at hstep
  · cases hstep
    exact h
  · refine exec_quietFor (h.setCmds_tail queue) (fun u update => ?_) hstep
    subst update
    exact h.waiting_quiet c (queue ▸ List.mem_cons_self) u d
  · cases hstep
    exact (h.setCmds_tail queue).of_same_channel (by cases x <;> rfl) rfl (List.Subset.refl rest)

/-- A step over an UPDATE is that UPDATE on the state without it. -/
theorem step_of_decode_update {s : State} {c : Command} {rest : List Command} {u : Upd} (queue : s.cmds = c :: rest)
    (d : decode c = .ok (.update u)) : step s = .next (updateState u (s.setCmds rest)) := by
  rw [step_of_cmds_cons queue, runCommand_of_decode_ok d]
  rfl

/-- The UPDATE a step takes from a quiet queue leaves the channel's start time and duration, and neither of its
status bits. -/
theorem updateState_chan_of_quietFor {s : State} {x : ChannelId} {c : Command} {rest : List Command} {u : Upd}
    (h : s.QuietFor x) (queue : s.cmds = c :: rest) (d : decode c = .ok (.update u)) :
    (updateState u (s.setCmds rest)).chan x =
      { s.chan x with
        level := 0#32, gwh := gateHigh s.config (u.gate x), vout := word (vconv s.config 0), eoc := false,
        trig := false } := by
  have taken := h.setCmds_tail queue
  have quiet : Quiet u (s.setCmds rest).config x := h.waiting_quiet c (queue ▸ List.mem_cons_self) u d
  rw [updateState_chan_of_idle (not_fires_of_quiet quiet) taken.idle, State.setCmds_chan, State.setCmds_config]

/-- Settles O56: `step_quietFor`, and over an UPDATE the Idle branch of ADV. -/
theorem everyStepKeepsAQuietChannelIdle : Obligations.EveryStepKeepsAQuietChannelIdle := by
  intro s t x h hstep
  refine ⟨step_quietFor h hstep, fun c rest u queue d => ?_⟩
  rw [step_of_decode_update queue d] at hstep
  cases hstep
  rw [updateState_chan_of_quietFor h queue d]
  exact ⟨rfl, rfl, rfl, rfl⟩

theorem run_succ_of_step {s t : State} (h : step s = .next t) (n : Nat) :
    Sys2Proof.core.run (n + 1) s = Sys2Proof.core.run n t := by
  have next : Sys2Proof.core.step s = .next t := h
  simp only [Host.Core.run, next]

/-- A run over waiting UPDATEs from a quiet state. The status bits are clear after it if it takes an UPDATE or
they were clear before. -/
theorem run_updates_of_quietFor {x : ChannelId} {us : List Upd} (wf : ∀ u ∈ us, u.wellFormed = true) {s : State}
    (h : s.QuietFor x) (queue : s.cmds = us.map fun u => encode (.update u)) :
    ∃ t : State, Sys2Proof.core.run us.length s = .next t ∧ t.cmds = [] ∧ t.QuietFor x ∧
      (us ≠ [] ∨ (s.chan x).eoc = false ∧ (s.chan x).trig = false →
        (t.chan x).eoc = false ∧ (t.chan x).trig = false) := by
  induction us generalizing s with
  | nil => exact ⟨s, rfl, queue, h, fun clear => clear.resolve_left (· rfl)⟩
  | cons u us ih =>
    obtain ⟨wfHead, wfTail⟩ := List.forall_mem_cons.mp wf
    have decoded := decodeOfEncodeIsTheInstruction (.update u) wfHead
    have first := step_of_decode_update queue decoded
    have chan := updateState_chan_of_quietFor h queue decoded
    obtain ⟨t, run, empty, quiet, clear⟩ := ih wfTail (step_quietFor h first) rfl
    refine ⟨t, (run_succ_of_step first _).trans run, empty, quiet, fun _ => clear (.inr ?_)⟩
    exact ⟨congrArg Channel.eoc chan, congrArg Channel.trig chan⟩

/-- Settles O32: only the UPDATEs of the list wait, so the state is quiet for the channel. -/
theorem quietPollsKeepAnIdleChannelIdle : Obligations.QuietPollsKeepAnIdleChannelIdle := by
  intro us s x quiet queue stage level
  have waiting : ∀ c ∈ s.cmds, ∀ u, decode c = .ok (.update u) → Quiet u s.config x := by
    rw [queue, List.forall_mem_map]
    intro u mem v d
    obtain ⟨wf, quietU⟩ := quiet u mem
    cases (decodeOfEncodeIsTheInstruction (.update u) wf).symm.trans d
    exact quietU
  obtain ⟨t, run, empty, ⟨idle, zero, -⟩, clear⟩ :=
    run_updates_of_quietFor (fun u mem => (quiet u mem).1) ⟨stage, level, waiting⟩ queue
  exact ⟨t, run, empty, idle, zero, fun nonempty => clear (.inl nonempty)⟩

end Sys2Proof.Machine
end

section
/-! The trigger aggregator over one UPDATE and over two: the latches it leaves and the edges it sees against them
(spec/44_trigger_aggregator.md R200 to R203). -/

namespace Sys2Proof.Machine

theorem triggered_gwh (u : Upd) (s : State) (x : ChannelId) :
    (triggered u s x).gwh = gateHigh s.config (u.gate x) := by
  unfold triggered
  cases trigOf u s x with
  | false => rfl
  | true => rfl

/-- R200: the gate latch takes the gate's level whether or not the channel is triggered. -/
@[simp] theorem updateState_gwh (u : Upd) (s : State) (x : ChannelId) :
    ((updateState u s).chan x).gwh = gateHigh s.config (u.gate x) := by
  obtain ⟨gwh, -, -, -⟩ := adv_frame u.now (timeMap s.config u.potDec) (u8ToQ15 u.potShape) (triggered u s x)
  rw [updateState_chan]
  exact gwh.trans (triggered_gwh u s x)

theorem gateHigh_iff (c : Config) (gate : Int) : gateHigh c gate = true ↔ c.gateTh < gate := decide_eq_true_iff

/-- Settles O19: the gate latch is `updateState_gwh`, the trigger decision `Fires`. -/
theorem updateComputesTriggersAndLatches : Obligations.UpdateComputesTriggersAndLatches := fun u s =>
  ⟨updateState u s, exec_update u s, updateState_bwp u s, updateState_pflag u s, fun x =>
    ⟨by rw [updateState_gwh, gateHigh_iff], updateState_trig_iff_fires u s x⟩⟩

/-- R203: after an UPDATE the latches hold its own levels, so a source that was high in it has no edge in the
next. -/
theorem not_fires_updateState_of_held {u u' : Upd} {s : State} {x : ChannelId}
    (gateHeld : s.config.gateTh < u'.gate x → s.config.gateTh < u.gate x) (btnHeld : u'.btn = true → u.btn = true)
    (noPulse : u'.pedge = false) : ¬Fires u' (updateState u s) x := by
  rintro (⟨high, low⟩ | ⟨pressed, up⟩ | edge)
  · rw [updateState_config] at high
    rw [updateState_gwh] at low
    cases low.symm.trans ((gateHigh_iff s.config (u.gate x)).mpr (gateHeld high))
  · rw [updateState_bwp] at up
    cases up.symm.trans (btnHeld pressed)
  · cases noPulse.symm.trans edge

/-- Settles O26: a held source meets its own latch, and a pulse edge meets none. -/
theorem heldSourcesTriggerOnce : Obligations.HeldSourcesTriggerOnce := by
  intro u u' s t t' x e e'
  cases e
  cases e'
  refine ⟨fun gateHeld btnHeld noPulse => ?_, fun pulse pulse' => ⟨?_, ?_⟩⟩
  · exact Bool.eq_false_iff.mpr
      (mt (updateState_trig_iff_fires u' _ x).mp (not_fires_updateState_of_held gateHeld btnHeld noPulse))
  · exact (updateState_trig_iff_fires u s x).mpr (.inr (.inr pulse))
  · exact (updateState_trig_iff_fires u' _ x).mpr (.inr (.inr pulse'))

end Sys2Proof.Machine
end

section
/-! UPDATE's outputs (spec/45_update.md R220 to R222): the clamp and the converter of step 6, what VCONV answers,
and the registers an UPDATE overwrites before it reads them. -/

namespace Sys2Proof.Machine

theorem clamp_eq_max_min {lo hi : Int} (h : lo ≤ hi) (v : Int) : clamp v lo hi = max lo (min v hi) := by
  unfold clamp
  split_ifs <;> omega

/-- R221 for every operand: the inner range is `[0, ONE]`, and R9 orders the outer one. -/
theorem vconv_eq_max_min (c : Config) (level : Int) :
    vconv c level = max (c.vMin : Int) (min (c.vCenter + c.vGain * max 0 (min level 32768)) c.vMax) := by
  rw [vconv, clamp_eq_max_min (Int.ofNat_le.mpr c.vMin_le_vMax), clamp_eq_max_min (by decide)]

theorem exec_vconv (level : Int) (s : State) :
    exec (.vconv level) s = .next { s with res := word (vconv s.config level), errc := 0#2 } := rfl

/-- Settles O10: VCONV answers `vconv`, whose two clamps are of ordered ranges. -/
theorem vconvConvertsEveryLevel : Obligations.VconvConvertsEveryLevel :=
  ⟨decode_of_op .vconv, fun level s => by rw [exec_vconv, vconv_eq_max_min]⟩

/-- Step 6 of R220 clamps the level, whatever ADV left in the register. -/
theorem emitOp_level_mem (c : Config) (ch : Channel) :
    0 ≤ (emitOp c ch).level.toInt ∧ (emitOp c ch).level.toInt ≤ 32768 := by
  obtain ⟨low, high⟩ := clamp_mem (v := ch.level.toInt) (lo := 0) (hi := 32768) (by decide)
  have value : (emitOp c ch).level.toInt = clamp ch.level.toInt 0 32768 := word_toInt (by omega) (by omega)
  rw [value]
  exact ⟨low, high⟩

/-- The level converted is the clamped one. -/
theorem emitOp_vout (c : Config) (ch : Channel) :
    (emitOp c ch).vout = word (vconv c (emitOp c ch).level.toInt) := rfl

/-- Settles O24: step 6 puts each level in range and converts it, whatever step 4 left there. -/
theorem updateDrivesTheOutputs : Obligations.UpdateDrivesTheOutputs := by
  intro u s
  refine ⟨updateState u s, exec_update u s, updateState_pulseOut_eq u s, updateState_errc u s, updateState_res u s,
    updateState_config u s, updateState_cmds u s, fun x => ?_⟩
  obtain ⟨low, high⟩ := emitOp_level_mem s.config (advanced u s x).1
  rw [updateState_chan]
  exact ⟨low, high, emitOp_vout _ _⟩

/-- The registers of a channel that an UPDATE overwrites before it reads them, `LEVEL_X`, `VOUT_X`, `EOC_X` and
`TRIG_X`, taken from `old`. -/
def Channel.withUnread (ch old : Channel) : Channel :=
  { ch with level := old.level, vout := old.vout, eoc := old.eoc, trig := old.trig }

theorem Channel.eq_withUnread {ch old : Channel} (stage : ch.stage = old.stage) (start : ch.start = old.start)
    (dur : ch.dur = old.dur) (gwh : ch.gwh = old.gwh) : old = ch.withUnread old := by
  rw [withUnread, stage, start, dur, gwh]

/-- Every branch of ADV writes the level (R173), and none reads an output or status register. -/
theorem adv_withUnread (now tDec : Nat) (blend : Int) (ch old : Channel) :
    adv now tDec blend (ch.withUnread old) =
      ({ (adv now tDec blend ch).1 with vout := old.vout, eoc := old.eoc, trig := old.trig },
        (adv now tDec blend ch).2) := by
  obtain ⟨stage, e⟩ | ⟨stage, ended, e⟩ | ⟨stage, running, e⟩ | ⟨stage, ended, e⟩ | ⟨stage, running, e⟩ :=
    adv_cases now tDec blend ch <;> rw [e]
  · exact adv_of_idle stage
  · exact adv_of_attack_ended stage ended
  · exact adv_of_attack_running stage running
  · exact adv_of_decay_ended stage ended
  · exact adv_of_decay_running stage running

/-- Steps 6 and 7 of R220 write the output and status registers over whatever ADV carried along. -/
theorem updateState_chan_congr_of_unread (u : Upd) {s s' : State} {x : ChannelId}
    (chan : s'.chan x = (s.chan x).withUnread (s'.chan x)) (bwp : s.bwp = s'.bwp) (config : s.config = s'.config) :
    (updateState u s).chan x = (updateState u s').chan x := by
  have fire : trigOf u s' x = trigOf u s x := by
    rw [trigOf, chan, ← bwp, ← config]
    rfl
  have start : triggered u s' x = (triggered u s x).withUnread (s'.chan x) := by
    rw [triggered, triggered, fire, chan, ← config]
    cases trigOf u s x with
    | false => rfl
    | true => rfl
  have moved : advanced u s' x =
      ({ (advanced u s x).1 with vout := (s'.chan x).vout, eoc := (s'.chan x).eoc, trig := (s'.chan x).trig },
        (advanced u s x).2) := by
    rw [advanced, start, ← config]
    exact adv_withUnread _ _ _ _ _
  rw [updateState_chan, updateState_chan, moved, fire, ← config]
  rfl

/-- Settles O28: each channel agrees by `updateState_chan_congr_of_unread`, and with the channels the pulse
output. -/
theorem updateReadsNoOutputRegister : Obligations.UpdateReadsNoOutputRegister := by
  intro u s s' t t' registers bwp config cmds e e'
  cases e
  cases e'
  have chan (x : ChannelId) : (updateState u s).chan x = (updateState u s').chan x := by
    obtain ⟨stage, start, dur, gwh⟩ := registers x
    exact updateState_chan_congr_of_unread u (Channel.eq_withUnread stage start dur gwh) bwp config
  have pulse : (updateState u s).pulseOut = (updateState u s').pulseOut := by
    rw [updateState_pulseOut_eq, updateState_pulseOut_eq, chan, chan]
  exact State.eq_of_fields (t := (updateState u s').setRes s.res)
    (fun x => (chan x).trans (State.setRes_chan (updateState u s') x s.res).symm) rfl rfl pulse rfl rfl config cmds

end Sys2Proof.Machine
end

section
/-! The control commands (spec/46_control.md): what RESET reads (R252), and that no UPDATE sees the error code that
NOP clears (R250). -/

namespace Sys2Proof.Machine

theorem exec_nop (s : State) : exec .nop s = .next { s with errc := 0#2 } := rfl

theorem exec_reset (s : State) : exec .reset s = .next (State.atReset s.config s.cmds) := rfl

/-- Settles O2: RESET builds its answer from the parameters and the queue. -/
theorem resetForgetsTheEnvelope : Obligations.ResetForgetsTheEnvelope := by
  intro s s' config cmds
  rw [exec_reset, exec_reset, config, cmds]

/-- `ERRC` is one of the registers O28 frees, and UPDATE carries over the `RES` both states share. -/
theorem updateState_errc_irrelevant (u : Upd) (s : State) (e : BitVec 2) :
    updateState u { s with errc := e } = updateState u s := by
  have agree : updateState u { s with errc := e } = { updateState u s with res := s.res } :=
    updateReadsNoOutputRegister u { s with errc := e } s _ _ (fun x => by cases x <;> exact ⟨rfl, rfl, rfl, rfl⟩)
      rfl rfl rfl (exec_update u _) (exec_update u s)
  rw [agree, ← updateState_res u s]

/-- Settles O3: the byte is NOP's row of the opcode map, and `updateState_errc_irrelevant`. -/
theorem nopOnlyClearsTheErrorCode : Obligations.NopOnlyClearsTheErrorCode :=
  ⟨decode_of_op .nop, exec_nop, fun u s => congrArg Host.Outcome.next (updateState_errc_irrelevant u s 0#2)⟩

end Sys2Proof.Machine
end

section
/-! The host's clock (spec/70_reset_and_hazards.md R360): what an UPDATE and every other step do to a channel whose
start time is a true time modulo `2^32`. -/

namespace Sys2Proof.Machine

variable {u : Upd} {s t : State} {x : ChannelId} {began last now : Nat}

/-- A stage begun at `now` with the duration of a knob is on the clock there: every duration is at least 1. -/
theorem tracks_of_begun {ch : Channel} {c : Config} {k : Nat} (knob : k ≤ 255)
    (start : ch.start = BitVec.ofNat 32 (now % 4294967296)) (dur : ch.dur = BitVec.ofNat 32 (timeMap c k)) :
    ch.Tracks now now where
  start_eq := by rw [start, BitVec.toNat_ofNat, Nat.mod_mod]
  began_le := le_rfl
  not_over := by
    rw [Nat.sub_self, dur, toNat_ofNat_of_le_tCeil c (timeMap_mem c knob).2]
    exact one_le_timeMap c knob

/-- The stage's age at `last` and the gap since then are together below one wrap of the clock. -/
theorem elapsed_of_tracks {ch : Channel} {c : Config} (track : ch.Tracks began last) (dur : ch.dur.toNat ≤ c.tCeil)
    (order : last ≤ now) (gap : now - last < 4294967296 - c.tCeil) :
    elapsed (now % 4294967296) ch.start = now - began := by
  obtain ⟨start, began_le, not_over⟩ := track
  exact elapsed_of_true_times start (began_le.trans order) (by omega)

/-- A trigger begins Attack and the end of Attack begins Decay, each at `NOW` (R170, R175). -/
theorem updateState_tracks_of_begins (wf : u.wellFormed = true) (clock : u.now = now % 4294967296)
    (begins : Begins u s x) :
    ((updateState u s).chan x).stage ≠ .idle ∧ ((updateState u s).chan x).Tracks now now := by
  obtain ⟨att, dec, -⟩ := Upd.knobs_le_of_wellFormed wf
  by_cases fires : Fires u s x
  · rw [updateState_chan_of_fires wf fires, clock]
    exact ⟨nofun, tracks_of_begun att rfl rfl⟩
  · obtain ⟨attack, ended⟩ := begins.resolve_left fires
    rw [updateState_chan_of_attack_ended fires attack ended, clock]
    exact ⟨nofun, tracks_of_begun dec rfl rfl⟩

/-- An UPDATE that begins no stage keeps the start time, and leaves the channel Idle or its stage running. -/
theorem updateState_stage_of_not_begins (wf : u.wellFormed = true) (goesOn : ¬Begins u s x) :
    ((updateState u s).chan x).start = (s.chan x).start ∧
      (((updateState u s).chan x).stage ≠ .idle →
        (s.chan x).stage ≠ .idle ∧ ((updateState u s).chan x).dur = (s.chan x).dur ∧
          elapsed u.now (s.chan x).start < (s.chan x).dur.toNat) := by
  obtain ⟨quiet, notAttackEnd⟩ := not_or.mp goesOn
  rcases Nat.lt_or_ge (elapsed u.now (s.chan x).start) (s.chan x).dur.toNat with running | ended
  · obtain ⟨sameStage, sameStart, sameDur⟩ := updateState_stage_of_running wf quiet running
    exact ⟨sameStart, fun active => ⟨sameStage ▸ active, sameDur, running⟩⟩
  · cases stage : (s.chan x).stage with
    | idle =>
      rw [updateState_chan_of_idle quiet stage]
      exact ⟨rfl, fun active => absurd stage active⟩
    | attack => exact absurd ⟨stage, ended⟩ notAttackEnd
    | decay =>
      rw [updateState_chan_of_decay_ended quiet stage ended]
      exact ⟨rfl, fun active => absurd rfl active⟩

/-- A stage that runs on, and whose elapsed time is its true age, is on the clock at `now` too. -/
theorem updateState_onClock_of_not_begins (wf : u.wellFormed = true) (goesOn : ¬Begins u s x)
    (onClock : (s.chan x).OnClock began last) (order : last ≤ now)
    (age : (s.chan x).stage ≠ .idle → elapsed u.now (s.chan x).start = now - began) :
    ((updateState u s).chan x).start = (s.chan x).start ∧ ((updateState u s).chan x).OnClock began now := by
  obtain ⟨sameStart, runs⟩ := updateState_stage_of_not_begins wf goesOn
  refine ⟨sameStart, fun active => ?_⟩
  obtain ⟨wasActive, sameDur, running⟩ := runs active
  obtain ⟨start, began_le, -⟩ := onClock wasActive
  exact
    { start_eq := sameStart ▸ start
      began_le := began_le.trans order
      not_over := by rwa [sameDur, ← age wasActive] }

/-- A command that is no UPDATE keeps a channel or resets it. -/
theorem exec_chan_of_not_update {i : Instr} (notUpdate : ∀ u, i ≠ .update u) (e : exec i s = .next t)
    (x : ChannelId) : t.chan x = s.chan x ∨ (t.chan x).stage = .idle := by
  obtain ⟨-, rfl⟩ | ⟨-, rfl⟩ | ⟨u, update, -⟩ | ⟨-, -, -, v, rfl⟩ | ⟨-, -, -, -, rfl⟩ := exec_cases e
  · exact .inl (State.setErrc_chan s x _)
  · exact .inr (by rw [State.atReset_chan]; rfl)
  · exact absurd update (notUpdate u)
  · exact .inl (by cases x <;> rfl)
  · exact .inl (State.setErrc_chan s x _)

/-- So does a step over no UPDATE. -/
theorem step_chan_of_not_update (notUpdate : ∀ c rest u, s.cmds = c :: rest → decode c ≠ .ok (.update u))
    (hstep : step s = .next t) (x : ChannelId) : t.chan x = s.chan x ∨ (t.chan x).stage = .idle := by
  obtain ⟨-, e⟩ | ⟨c, rest, i, queue, d, e⟩ | ⟨c, rest, -, -, -, e⟩ := step_cases s <;> rw [e] at hstep
  · cases hstep
    exact .inl rfl
  · rw [← State.setCmds_chan s x rest]
    exact exec_chan_of_not_update (fun u update => notUpdate c rest u queue (update ▸ d)) hstep x
  · cases hstep
    exact .inl (by cases x <;> rfl)

/-- An UPDATE reads no waiting command. -/
theorem updateState_setCmds_chan (u : Upd) (s : State) (q : List Command) (x : ChannelId) :
    (updateState u (s.setCmds q)).chan x = (updateState u s).chan x := by
  cases x <;> rfl

/-- Settles O33: the invariants are O43's. Over an UPDATE the elapsed time is the stage's true age, as R29 bounds
its duration by `T_CEIL`; a stage then begins at `NOW`, runs on, or ends in Idle. Any other step keeps the channel
or resets it. -/
theorem hostClockGivesTrueElapsedTime : Obligations.HostClockGivesTrueElapsedTime := by
  intro s t x began last inv onClock hstep
  refine ⟨?_, fun c rest u now queue d clock order gap => ?_, fun notUpdate active => ?_⟩
  · obtain ⟨t', e, inv'⟩ := everyStepKeepsTheInvariants s inv
    cases e.symm.trans hstep
    exact inv'
  · rw [step_of_decode_update queue d] at hstep
    cases hstep
    have wf : u.wellFormed = true := wellFormed_of_decode_ok d
    have age : (s.chan x).stage ≠ .idle → elapsed u.now (s.chan x).start = now - began := fun active =>
      clock ▸ elapsed_of_tracks (onClock active) (inv.channel x).dur_le_ceil order (gap active)
    rw [updateState_setCmds_chan]
    exact ⟨age, updateState_tracks_of_begins wf clock,
      fun goesOn => updateState_onClock_of_not_begins wf goesOn onClock order age⟩
  · obtain same | idle := step_chan_of_not_update notUpdate hstep x
    · rw [same] at active ⊢
      exact onClock active
    · exact absurd idle active

end Sys2Proof.Machine
end

section
/-! Stage transitions and errors (spec/60_exceptions.md): at most one transition a channel and UPDATE (R307), and
the error code each command leaves and none reads (R301, R303). -/

namespace Sys2Proof.Machine

/-- The transitions of ADV (R174 to R176). -/
theorem adv_stage_cases (now tDec : Nat) (blend : Int) (ch : Channel) :
    (ch.stage = .idle → (adv now tDec blend ch).1.stage = .idle) ∧
    (ch.stage = .attack → (adv now tDec blend ch).1.stage = .attack ∨ (adv now tDec blend ch).1.stage = .decay) ∧
    (ch.stage = .decay → (adv now tDec blend ch).1.stage = .decay ∨ (adv now tDec blend ch).1.stage = .idle) := by
  obtain ⟨g, e⟩ | ⟨g, -, e⟩ | ⟨g, -, e⟩ | ⟨g, -, e⟩ | ⟨g, -, e⟩ := adv_cases now tDec blend ch <;> simp [e, g]

/-- Of the branches of ADV only the end of Decay goes from Decay to Idle, and it alone answers an end-of-cycle. -/
theorem adv_eoc_iff (now tDec : Nat) (blend : Int) (ch : Channel) :
    (adv now tDec blend ch).2 = true ↔ ch.stage = .decay ∧ (adv now tDec blend ch).1.stage = .idle := by
  obtain ⟨g, e⟩ | ⟨g, -, e⟩ | ⟨g, -, e⟩ | ⟨g, -, e⟩ | ⟨g, -, e⟩ := adv_cases now tDec blend ch <;> simp [e, g]

theorem updateState_stage (u : Upd) (s : State) (x : ChannelId) :
    ((updateState u s).chan x).stage = (advanced u s x).1.stage := by
  rw [updateState_chan]
  rfl

theorem updateState_eoc (u : Upd) (s : State) (x : ChannelId) :
    ((updateState u s).chan x).eoc = (advanced u s x).2 := by
  rw [updateState_chan]

theorem triggered_stage_of_not_fires {u : Upd} {s : State} {x : ChannelId} (quiet : ¬Fires u s x) :
    (triggered u s x).stage = (s.chan x).stage := by
  rw [triggered_of_not_fires quiet]

/-- TRIG leaves Decay (R170), and without it the stage is as it was. -/
theorem triggered_decay_iff (u : Upd) (s : State) (x : ChannelId) :
    (triggered u s x).stage = .decay ↔ ¬Fires u s x ∧ (s.chan x).stage = .decay := by
  by_cases fires : Fires u s x
  · rw [triggered_of_fires fires]
    exact ⟨nofun, fun ⟨quiet, _⟩ => absurd fires quiet⟩
  · rw [triggered_stage_of_not_fires fires]
    exact (and_iff_right fires).symm

/-- Settles O25: TRIG puts a triggered channel in Attack; any other makes at most ADV's one transition, and the
end-of-cycle bit is ADV's. -/
theorem atMostOneStageTransitionPerUpdate : Obligations.AtMostOneStageTransitionPerUpdate := by
  intro u s x t wf e
  cases e
  refine ⟨fun fires => ?_, fun quiet => ?_, ?_⟩
  · rw [updateState_chan_of_fires wf fires]
  · rw [updateState_stage, ← triggered_stage_of_not_fires quiet]
    exact adv_stage_cases _ _ _ _
  · rw [updateState_eoc, updateState_stage, ← and_assoc, ← triggered_decay_iff]
    exact adv_eoc_iff _ _ _ _

theorem evaluate_next_errc (ok : Bool) (v : Int) (s : State) :
    ∃ t, evaluate ok v s = .next t ∧ t.errc = if ok then errNone else errDomain := by
  cases ok with
  | false => exact ⟨_, rfl, rfl⟩
  | true => exact ⟨_, rfl, rfl⟩

/-- A command reports `E_DOMAIN` exactly outside its domain (R303), and no other error. -/
theorem exec_next_errc (i : Instr) (s : State) :
    ∃ t, exec i s = .next t ∧ t.errc = if inDomain i then errNone else errDomain := by
  cases i with
  | nop | reset | update | vconv => exact ⟨_, rfl, rfl⟩
  | tmap | u8q15 | qmul | lerp | clamp | shape => exact evaluate_next_errc _ _ s

/-- Settles O38: the invariants are O43's, and the error code says whether the operands were in the domain. -/
theorem commandsInTheirDomainKeepTheStateSafe : Obligations.CommandsInTheirDomainKeepTheStateSafe := by
  rintro s c rest i ⟨inv, -⟩ queue d
  obtain ⟨t, e, errc⟩ := exec_next_errc i { s with cmds := rest }
  have hstep : step s = .next t := ((stepRunsTheDecodedCommand s c rest queue).1 i d).trans e
  obtain ⟨t', e', inv'⟩ := everyStepKeepsTheInvariants s inv
  cases e'.symm.trans hstep
  refine ⟨t, hstep, fun inside => ⟨inv', ?_⟩, fun outside => ?_⟩
  · rw [State.ErrorFree, errc, if_pos inside]
  · rw [errc, outside]
    rfl

theorem evaluate_errc_irrelevant (ok : Bool) (v : Int) (s : State) (e : BitVec 2) :
    evaluate ok v { s with errc := e } = evaluate ok v s := by
  cases ok with
  | false => rfl
  | true => rfl

theorem exec_errc_irrelevant (i : Instr) (s : State) (e : BitVec 2) :
    exec i { s with errc := e } = exec i s := by
  cases i with
  | nop | reset | vconv => rfl
  | update u => exact congrArg Host.Outcome.next (updateState_errc_irrelevant u s e)
  | tmap | u8q15 | qmul | lerp | clamp | shape => exact evaluate_errc_irrelevant _ _ s e

/-- Settles O36: a legal command does not read the code (`exec_errc_irrelevant`), and an illegal one overwrites
it. -/
theorem errorCodeIsNeverRead : Obligations.ErrorCodeIsNeverRead := by
  intro c s e
  cases d : decode c with
  | ok i => rw [runCommand_of_decode_ok d, runCommand_of_decode_ok d, exec_errc_irrelevant]
  | error r => rw [runCommand_of_decode_error d, runCommand_of_decode_error d]

/-- Settles O45: no command writes the parameters or the queue, so what a step changes of them is that it takes
the oldest command. -/
theorem stepsKeepTheParametersAndTakeOneCommand : Obligations.StepsKeepTheParametersAndTakeOneCommand := by
  intro s t hstep
  obtain ⟨queue, e⟩ | ⟨c, rest, i, queue, -, e⟩ | ⟨c, rest, -, queue, -, e⟩ := step_cases s
  · cases e.symm.trans hstep
    exact ⟨rfl, by simp [queue]⟩
  · rw [queue]
    exact exec_config_cmds (e.symm.trans hstep)
  · cases e.symm.trans hstep
    rw [queue]
    exact ⟨rfl, rfl⟩

/-- Settles O51: each is one evaluation of the decoder. -/
theorem writtenOutCommandsDecode : Obligations.WrittenOutCommandsDecode :=
  ⟨rfl, rfl, rfl, rfl, rfl, rfl, rfl, rfl, rfl⟩

end Sys2Proof.Machine
end
